-- ==== Sys2Proof/Word.lean ====
section
/-! DEFINITION. The word types of the YZ2: bytes, register words and the index types of its units. -/

namespace Sys2Proof

/-- A byte. Every multi-byte quantity of the part is little-endian (R5). -/
abbrev Byte := BitVec 8

/-- A scalar register, a register word or a scratchpad word. -/
abbrev Word64 := BitVec 64

/-- A string of bytes, lowest address first. -/
abbrev Bytes := List (BitVec 8)

/-- A core of the table of cores: 0 to 127 are the tensor cores of the die (R21), 128 is the YZ2-KB block (chapter 20). -/
abbrev CoreId := Fin 129

/-- A partition (R708): one for each virtual function. -/
abbrev PartId := Fin 16

/-- A PCIe function: 0 to 15 are VF n, 16 is the PF (chapter 15). -/
abbrev FnId := Fin 17

/-- A Kolnal link (Table 01-5). -/
abbrev LinkId := Fin 24

/-- A memory controller block: 0 to 7 HBM3E, 8 to 19 DDR5 (R836). -/
abbrev McId := Fin 20

/-- A Towpath engine. -/
abbrev TowId := Fin 4

/-- A submission or completion ring of a function. -/
abbrev RingId := Fin 4

end Sys2Proof
end

