-- ==== Sys2Proof/Syntax.lean ====
section
/-! DEFINITION. The commands of the part: one constructor of `Instr` for each row of the table of operations and events, with the
operands that the step needs from outside (addresses, values, lengths, outcomes of analogue or cryptographic work, and times
where a rule depends on elapsed time). -/

namespace Sys2Proof

/-- Who makes a control-space access (R848, R854, R870). -/
inductive Requester where
  /-- virtual function n through its own BAR0 -/
  | vf (n : PartId)
  /-- the physical function -/
  | pf
  /-- the Keeper through its own port -/
  | keeper
  /-- the TRQ port of a YZ2-KB block; its offsets are within the core window -/
  | trq
deriving DecidableEq, Repr

/-- One register write: the requester, the byte offset in its BAR0 (for `trq`, in the core window), 4 or 8 bytes, and the data. -/
structure Access where
  who  : Requester
  off  : Nat
  size : Nat
  data : BitVec 64
deriving DecidableEq, Repr

/-- What starts a POWER-ON reset (R748, R786). -/
inductive PorCause where
  /-- RESET_N is released with every supply in limits -/
  | release
  /-- a module supply leaves its limits -/
  | supplyLoss
deriving DecidableEq, Repr

/-- The header of a firmware image as the Keeper ROM checks it (R750). Whether the ECDSA signature verifies is given
as an operand: the image itself lies outside the part. -/
structure ImageHdr where
  keyHash  : BitVec 384
  sigOk    : Bool
  svn      : BitVec 8
  version  : BitVec 32
deriving DecidableEq, Repr

/-- How the training of a tier ends (R754, R486). -/
inductive TrainResult where
  /-- every controller of the tier trains at this bin: 0 top, 1 middle, 2 lowest -/
  | ok (bin : Fin 3)
  /-- the tier falls back to this lower bin and goes on -/
  | fallBack (bin : Fin 3)
  /-- these controllers of the tier fail at every bin -/
  | fail (ms : List Nat)
deriving DecidableEq, Repr

/-- Who asks for a reset or a chip power state: a started packet, the KPR register, or the board management controller. -/
inductive ReqSrc where
  | packet (pid : Nat)
  | register
  | mctp
deriving DecidableEq, Repr

/-- Who commits the staged registers (R775). -/
inductive CommitSrc where
  | packet (pid : Nat)
  | register (a : Access)
deriving DecidableEq, Repr

/-- The breach events of R75 that a command of their own does not cover. -/
inductive BreachKind where
  | overCurrent
  | supplyLost
  | powerOn
  | standbyOrOffStep
deriving DecidableEq, Repr

/-- What R884 takes as the loss of a module supply. -/
inductive SupplyLoss where
  | pwrGoodFell
  /-- REFCLK156 stopped for this many ns -/
  | refclk156Stopped (ns : Nat)
deriving DecidableEq, Repr

/-- An ECC event met by a scratchpad access: the word (row × 64 + word in row), its syndrome, whether it is uncorrectable,
and the time in seconds. -/
structure EccErr where
  word     : Nat
  syndrome : BitVec 8
  ue       : Bool
  sec      : Nat
deriving DecidableEq, Repr

/-- What a memory controller's code finds in the line it serves (R488, R489). -/
inductive EccResult where
  | clean
  | corrected
  | uncorrectable
deriving DecidableEq, Repr

/-- An ECC event met by a read of external memory: the device line (address div 64) and whether it is uncorrectable (R488, R489). -/
structure MemErr where
  line : Nat
  ue   : Bool
deriving DecidableEq, Repr

/-- What a command that reads is given, with the errors that its reads met. -/
structure Met (α ε : Type) where
  arg  : α
  errs : List ε
deriving DecidableEq, Repr

/-- What an island's meter reports: the charge since its last report, in sixteenths of a unit, and whether the next sub-window begins (R64). -/
structure MeterReport where
  used   : Nat
  begins : Bool
deriving DecidableEq, Repr

/-- A cache's request for ownership: the store that it waits to make, and whether the request arrives in the cycle of the request for the line
that was granted last (R522). -/
structure Ownership where
  store    : Option (BitVec 512)
  together : Bool
deriving DecidableEq, Repr

/-- The timing of one MMA, which is not in the state: its freeze cycles by cause of R249, the cycles it took, and whether the latest stationary
load completes in the very cycle in which it starts (R267). -/
structure FreezeCycles where
  a : Nat
  b : Nat
  c : Nat
  d : Nat
  cycles : Nat
  atLoad : Bool
deriving DecidableEq, Repr

/-- The outcome of a link training attempt: which lanes locked, and the partner's TRAIN flit (Table 13-2). `ack` is the last
DATA flit the partner delivered; `fast` marks the retrain from step 3 of R617. -/
structure TrainInfo where
  locked   : BitVec 8
  narrow   : Bool
  chip     : BitVec 8
  link     : Nat
  trayLog2 : Nat
  ack      : BitVec 12
  fast     : Bool
deriving DecidableEq, Repr

/-- A received frame: the 256-byte flit after correction, and the number of symbol errors in its two codewords (R606, R607). -/
structure FrameRx where
  flit : Bytes
  err0 : Nat
  err1 : Nat
deriving DecidableEq, Repr

/-- A CTRL record (13_kolnal_links.md, after Table 13-5). -/
structure CtrlRec where
  kind   : BitVec 8
  seq    : BitVec 16
  reason : BitVec 8
  link   : BitVec 8
  slot   : BitVec 8
deriving DecidableEq, Repr

/-- The commands. `u` names a core (128 is the YZ2-KB block) and `dt` the core cycles since its sequencer's last step; `k` is the
position of an in-flight message; `pid` is the number of a started packet; `t` is a time in ns. -/
inductive Instr where
  /-- POWER_ON_RESET (R748). Release of RESET_N with supplies in limits, or loss of a module supply, starts the whole start-up sequence from step 1. -/
  | powerOnReset (cause : PorCause) (fuseOk : Bool)
  /-- FIRMWARE_AUTHENTICATE (R750). The Keeper ROM checks the key hash, the ECDSA signature and the SVN of image A and then of image B, and starts an accepted image or sets AUTH_FAIL. -/
  | firmwareAuthenticate (a b : ImageHdr)
  /-- RECOVERY (R751). An MCTP RECOVERY command delivers part of a recovery image, which the ROM authenticates under R750 once it is whole. -/
  | recovery (last : Option ImageHdr)
  /-- TRAY_QUERY (R41). The board management controller's reply to TRAY_QUERY gives the tray number, and firmware writes KLK_TOPOLOGY and sets LOCKED. -/
  | trayQuery (tray : Nat) (log2 : Nat)
  /-- MEMORY_TRAINING_DONE (R754). A tier finishes training at a bin, falls back to a lower bin, or fails at every bin and sets TRAIN_FAIL. -/
  | memoryTrainingDone (tier2 : Bool) (result : TrainResult)
  /-- ZERO_FILL_DONE (R755). A memory controller finishes writing zero lines over its memory, which sets ZERO1_DONE or ZERO2_DONE and releases waiting PART_CREATE packets. -/
  | zeroFillDone (m : McId)
  /-- READY (R757). READY is set once the memory is trained, the first link attempts are done and Tier 1 is zeroed; every core is then in C1 and the chip in RUN. -/
  | ready (selfTestFailed : BitVec 128)
  /-- CONFIG_RETRY_TIMEOUT (R753). When READY is not reached within 900 ms, the host block completes configuration requests normally and exposes only the KPR block. -/
  | configRetryTimeout
  /-- CHIP_RESET (R758). A chip reset puts both tiers in self-refresh, resets the die, and restarts start-up from step 2 with the fill immediate or deferred under KEEP_MEM. -/
  | chipReset (src : ReqSrc)
  /-- PARTITION_RESET (R760). A partition reset powers the partition down with no grace, returns its T fields to reset, and rewrites its creation values so that it ends ACTIVE. -/
  | partitionReset (src : ReqSrc) (p : PartId)
  /-- CORE_RESET (R761). A core reset halts the task, flushes the core's queues, returns its K fields to reset and leaves the core in C1. -/
  | coreReset (src : ReqSrc) (u : CoreId)
  /-- LINK_RESET (R762). A link reset takes the masked links out of UP, hands their traffic over, resets their L fields and retrains them. -/
  | linkReset (src : ReqSrc) (l : LinkId)
  /-- PCIE_HOT_RESET (R763). A PCIe hot reset or PERST_N acts as a function level reset of the PF and retrains the PCIe link. -/
  | pcieHotReset
  /-- FUNCTION_LEVEL_RESET (R737). A function level reset returns the function's CMD registers and MSI-X table to reset and discards its unstarted packets. -/
  | functionLevelReset (fn : FnId)
  /-- MEMZERO_GO (R758). A write of 1 to KPR_MEMZERO.GO starts a zero fill that was deferred under KEEP_MEM. -/
  | memzeroGo (a : Access)
  /-- EPOCH_BOUNDARY (R56). Every 1,000 Reservoir cycles a new epoch begins: islands adopt their grants and levels, the energy account is updated, and the telemetry record is written. -/
  | epochBoundary (telemOk : Bool)
  /-- POWER_REQUEST (R102). An island's 32-bit request arrives at the Reservoir; a request that carries an unassigned island number is discarded. -/
  | powerRequest (w : BitVec 32) (cycle : Nat)
  /-- REQUEST_WINDOW_CLOSE (R57). At the close of the request window the Reservoir substitutes the previous request of each missing island and computes the grant limit and the grants. -/
  | requestWindowClose
  /-- GRANT_RECEIVE (R62). An island receives its grant and chooses its frequency level for the next epoch. -/
  | grantReceive (i : Nat)
  /-- SUB_WINDOW (R64). A 125 ns sub-window begins, renewing the island's allowance with any carry from the previous sub-window. -/
  | subWindow (i : Nat) (report : MeterReport)
  /-- PACING_SLOT_START (R85). The chip's pacing slot begins, and a ramp opens when demand exceeds the ramp-close level by more than FREE_W. -/
  | pacingSlotStart
  /-- PACE_FRAME (R90). A PACE frame is received whole; a valid frame marks the cycle start and sets the slot values, and a bad one is discarded. -/
  | paceFrame (bits : BitVec 80)
  /-- PACE_LOSS_TIMEOUT (R91). Two pacing cycles without a valid frame make the chip pace from link time or from its local timer, and set PACE_LOST. -/
  | paceLossTimeout (masterReachable : Bool)
  /-- PACE_TIME (R92). A pacing master's cycle start arrives over MGMT, and chips that pace from link time align their cycle to it. -/
  | paceTime (k : Nat)
  /-- LOCAL_PACING_CYCLE (R94). A chip pacing from its local timer starts a pacing cycle, and a master sends its own cycle start. -/
  | localPacingCycle
  /-- THERMAL_THROTTLE (R99). Junction temperature reaching THROTTLE_C, or falling below it minus 3 °C, engages or releases the thermal cap. -/
  | thermalThrottle (tempC : Nat)
  /-- BREACH_EVENT (R75). A breach event (regulator over-current, loss of a supply, POWER-ON reset, or a STANDBY or OFF step) takes power outside the Weir band and sets BREACH. -/
  | breachEvent (kind : BreachKind)
  /-- THERMAL_TRIP_110 (R888). A junction sensor reaching 110 °C sets every requesting island to its MIN and asserts THERM_N until every sensor reads below 100 °C. -/
  | thermalTrip110 (tempC : Nat)
  /-- THERMTRIP (R889). A junction at 125 °C or an HBM3E stack at 105 °C makes the carrier remove the rails and assert THERMTRIP_N. -/
  | thermtrip (junctionC hbmC : Nat)
  /-- PWR_GOOD_LOSS (R884). PWR_GOOD falling, or REFCLK156 stopping for more than 10 µs, resets the module as a loss of supply. -/
  | pwrGoodLoss (cause : SupplyLoss)
  /-- PWR_EN_DEASSERT (R885). Deasserting PWR_EN lowers the rails in reverse order, and is a supply loss unless RESET_N is low or OFF_READY is set. -/
  | pwrEnDeassert
  /-- PMBUS_READ (R97). Keeper firmware reads every regulator over PMBus once per millisecond and trims P_STATIC after a sustained mismatch. -/
  | pmbusRead (readings : List Nat) (pinMw : Nat) (trimMw : Nat)
  /-- P_STATIC_WRITE (R98). A write to RSV_STATIC sets P_STATIC, which moves toward the new value at no more than 2 W per millisecond. -/
  | pStaticWrite (a : Access)
  /-- STAGED_REGISTER_WRITE (R774). A write to a staged register goes to its pending copy. -/
  | stagedRegisterWrite (a : Access)
  /-- COMMIT (R775). The COMMIT packet or KPR_COMMIT.GO captures every pending copy, for adoption at the next epoch or window boundary. -/
  | commit (src : CommitSrc)
  /-- STANDBY_REQUEST (R769). A STANDBY request is refused unless every partition is idle; an accepted one ramps power down and puts both tiers in self-refresh. -/
  | standbyRequest (src : ReqSrc)
  /-- RUN_REQUEST (R771). A RUN request, PART_START or PART_CREATE starts the chip's return from STANDBY to RUN. -/
  | runRequest (src : ReqSrc)
  /-- STANDBY_EXIT (R77). At the chip's pacing slot, the chip leaves STANDBY with a step of at most 120 W. -/
  | standbyExit
  /-- OFF_REQUEST (R772). An OFF request powers every partition down, enters the STANDBY condition, holds every link and sets OFF_READY. -/
  | offRequest (src : ReqSrc)
  /-- CSTATE_ENTRY (R765). A core with a pending C1, C2 or C3 request leaves C0 once its queues are empty and its operations are complete. -/
  | cstateEntry (u : CoreId)
  /-- ISLAND_WAKE (R50). A request reaching a core island in C1 is held while the island's clock restarts. -/
  | islandWake (u : CoreId)
  /-- ISLAND_OFF (R51). A request reaching a core in C2 or C3, or a fenced island, is answered with ISLAND_OFF. -/
  | islandOff (u : CoreId) (tag : Nat)
  /-- NOP (R224). Instruction NOP does nothing. -/
  | nop (u : CoreId) (dt : Nat)
  /-- END (R412). END holds the sequencer until all work is complete, and then ends the task with OK or with the held status. -/
  | endTask (u : CoreId) (dt : Nat)
  /-- FENCE (R411). FENCE holds the sequencer until the named queues, and optionally the posted stores and SOPs, have completed. -/
  | fence (u : CoreId) (dt : Nat)
  /-- SPWR (R410). SPWR requests new states for the masked bank pairs, and holds the sequencer until pairs set ON are ON. -/
  | spwr (u : CoreId) (dt : Nat)
  /-- BRK (R413). BRK halts the sequencer in debug mode, and has no effect otherwise. -/
  | brk (u : CoreId) (dt : Nat)
  /-- ADD (R357). ALU register-form add, modulo 2^64. -/
  | add (u : CoreId) (dt : Nat)
  /-- SUB (R357). ALU register-form subtract. -/
  | sub (u : CoreId) (dt : Nat)
  /-- AND (R357). ALU register-form bitwise AND. -/
  | andReg (u : CoreId) (dt : Nat)
  /-- OR (R357). ALU register-form bitwise OR. -/
  | orReg (u : CoreId) (dt : Nat)
  /-- XOR (R357). ALU register-form bitwise XOR. -/
  | xorReg (u : CoreId) (dt : Nat)
  /-- SLL (R357). ALU register-form logical shift left. -/
  | sll (u : CoreId) (dt : Nat)
  /-- SRL (R357). ALU register-form logical shift right. -/
  | srl (u : CoreId) (dt : Nat)
  /-- SRA (R357). ALU register-form arithmetic shift right. -/
  | sra (u : CoreId) (dt : Nat)
  /-- MUL (R357). ALU register-form multiply, giving the low 64 bits. -/
  | mul (u : CoreId) (dt : Nat)
  /-- MIN (R357). ALU register-form signed minimum. -/
  | min (u : CoreId) (dt : Nat)
  /-- MAX (R357). ALU register-form signed maximum. -/
  | max (u : CoreId) (dt : Nat)
  /-- MINU (R357). ALU register-form unsigned minimum. -/
  | minu (u : CoreId) (dt : Nat)
  /-- MAXU (R357). ALU register-form unsigned maximum. -/
  | maxu (u : CoreId) (dt : Nat)
  /-- SLT (R357). ALU register-form signed set-less-than. -/
  | slt (u : CoreId) (dt : Nat)
  /-- SLTU (R357). ALU register-form unsigned set-less-than. -/
  | sltu (u : CoreId) (dt : Nat)
  /-- ADDI (R357). ALU immediate-form add. -/
  | addi (u : CoreId) (dt : Nat)
  /-- SUBI (R357). ALU immediate-form subtract. -/
  | subi (u : CoreId) (dt : Nat)
  /-- ANDI (R357). ALU immediate-form bitwise AND. -/
  | andi (u : CoreId) (dt : Nat)
  /-- ORI (R357). ALU immediate-form bitwise OR. -/
  | ori (u : CoreId) (dt : Nat)
  /-- XORI (R357). ALU immediate-form bitwise XOR. -/
  | xori (u : CoreId) (dt : Nat)
  /-- SLLI (R357). ALU immediate-form logical shift left. -/
  | slli (u : CoreId) (dt : Nat)
  /-- SRLI (R357). ALU immediate-form logical shift right. -/
  | srli (u : CoreId) (dt : Nat)
  /-- SRAI (R357). ALU immediate-form arithmetic shift right. -/
  | srai (u : CoreId) (dt : Nat)
  /-- MULI (R357). ALU immediate-form multiply. -/
  | muli (u : CoreId) (dt : Nat)
  /-- MINI (R357). ALU immediate-form signed minimum. -/
  | mini (u : CoreId) (dt : Nat)
  /-- MAXI (R357). ALU immediate-form signed maximum. -/
  | maxi (u : CoreId) (dt : Nat)
  /-- MINUI (R357). ALU immediate-form unsigned minimum. -/
  | minui (u : CoreId) (dt : Nat)
  /-- MAXUI (R357). ALU immediate-form unsigned maximum. -/
  | maxui (u : CoreId) (dt : Nat)
  /-- SLTI (R357). ALU immediate-form signed set-less-than. -/
  | slti (u : CoreId) (dt : Nat)
  /-- SLTUI (R357). ALU immediate-form unsigned set-less-than. -/
  | sltui (u : CoreId) (dt : Nat)
  /-- LD (R406). LD loads 1 to 8 words through the narrow view into scalar registers, after issue checks of alignment and range. -/
  | ld (u : CoreId) (dt : Nat) (ecc : List EccErr)
  /-- ST (R407). ST posts a narrow-view store of scalar registers to scratchpad. -/
  | st (u : CoreId) (dt : Met Nat EccErr)
  /-- BR (R408). BR branches when its condition on two registers holds. -/
  | br (u : CoreId) (dt : Nat)
  /-- JAL (R408). JAL writes PC + 1 to RD and jumps. -/
  | jal (u : CoreId) (dt : Nat)
  /-- JR (R409). JR jumps to a register value, and ends the task with PC_RANGE when the value exceeds 4,095. -/
  | jr (u : CoreId) (dt : Nat)
  /-- RDSR (R358). RDSR reads a special register by selector into RD. -/
  | rdsr (u : CoreId) (dt : Nat)
  /-- RDCFG (R362). RDCFG reads configuration word TCW into RD. -/
  | rdcfg (u : CoreId) (dt : Nat)
  /-- CFG (R363). CFG writes a configuration word from IMM, after checking codes and starting any change of SHAPE. -/
  | cfg (u : CoreId) (dt : Nat)
  /-- CFGR (R363). CFGR writes a configuration word from s[RA], under the same checks as CFG. -/
  | cfgr (u : CoreId) (dt : Nat)
  /-- PC_OVERRUN (R231). The program counter passes instruction 4,095, so the sequencer halts with PC_RANGE. -/
  | pcOverrun (u : CoreId)
  /-- SHAPE_CHANGE (R233). Once the core is quiescent and ballast has left, a pending change of SHAPE runs for 16 cycles, clearing the sets and marking the stationary buffers empty. -/
  | shapeChange (u : CoreId)
  /-- LDS (R367). LDS issues a stationary load into the feed queue, after its issue checks. -/
  | lds (u : CoreId) (dt : Nat)
  /-- LDS_START (R236). A queued stationary load starts once the standby buffer is free, and writes the tile to all standby buffers. -/
  | ldsStart (u : CoreId) (ecc : List EccErr)
  /-- MMA (R366). MMA issues a matrix multiply into the feed queue, copying its modes and writing the set record. -/
  | mma (u : CoreId) (dt : Nat)
  /-- MMA_START (R247). A queued MMA starts streaming weight rows, making the standby tile active when it is new. -/
  | mmaStart (u : CoreId) (fz : FreezeCycles) (ecc : List EccErr)
  /-- SWAP (R285). SWAP issues into the drain queue and exchanges the set records. -/
  | swap (u : CoreId) (dt : Nat)
  /-- SWAP_EFFECT (R287). SWAP takes effect once earlier MMAs and drains are done, exchanging the live and shadow sets of all arrays. -/
  | swapEffect (u : CoreId) (holdCycles : Nat)
  /-- DRAIN (R372). DRAIN issues into the drain queue, copying its set record and output descriptors. -/
  | drain (u : CoreId) (dt : Nat)
  /-- DRAIN_START (R255). A drain begins writing finished rows in slot 1 at least 16 cycles after its SWAP takes effect. -/
  | drainStart (u : CoreId) (ecc : List EccErr)
  /-- DLOAD (R379). DLOAD copies 64 bytes from scratchpad into a descriptor slot. -/
  | dload (u : CoreId) (dt : Nat) (ecc : List EccErr)
  /-- ULOAD (R381). ULOAD copies NW + 1 microcode words from scratchpad into the microcode store. -/
  | uload (u : CoreId) (dt : Nat) (ecc : List EccErr)
  /-- COUNT (R383). COUNT writes the inclusive prefix counts of present nonzero elements for a range of lines. -/
  | count (u : CoreId) (dt : Nat) (ecc : List EccErr)
  /-- MERGE (R202). MERGE writes the union of two operands through the drain encoder, combining the coordinates they share. -/
  | merge (u : CoreId) (dt : Nat) (ecc : List EccErr)
  /-- SCOREBOARD_FREE (R228). A scoreboard entry is freed when its instruction's last access to its rows completes, releasing held instructions. -/
  | scoreboardFree (u : CoreId) (id : Nat)
  /-- DMA (R386). DMA issues a transfer into the DMA queue, declaring its rows in the scoreboard. -/
  | dma (u : CoreId) (dt : Nat)
  /-- DMA_START (R492). An engine takes a queued DMA, reads and checks its descriptor, and issues memory requests. -/
  | dmaStart (u : CoreId) (ecc : List EccErr)
  /-- DMA_COMPLETE (R390). A DMA completes when its last write is done or visible, reports the status of its first failing request, and signals its sluice under SIG. -/
  | dmaComplete (u : CoreId) (e : Fin 2)
  /-- SOP_SIGNAL (R399). SOP SIGNAL is posted to the sluice's bank, after ORD completions. -/
  | sopSignal (u : CoreId) (dt : Nat)
  /-- SOP_WAIT (R400). SOP WAIT registers a waiter and holds the sequencer until the count reaches VAL. -/
  | sopWait (u : CoreId) (dt : Nat)
  /-- SOP_TEST (R401). SOP TEST writes the sluice's control word and count to RD. -/
  | sopTest (u : CoreId) (dt : Nat)
  /-- SOP_RESET (R399). SOP RESET is posted to set a sluice's count to VAL. -/
  | sopReset (u : CoreId) (dt : Nat)
  /-- SOP_ARM (R399). SOP ARM is posted to set a sluice's control bits. -/
  | sopArm (u : CoreId) (dt : Nat)
  /-- SOP_GATE (R402). SOP GATE places entries in the named dispatch queues that hold later instructions until the count reaches VAL. -/
  | sopGate (u : CoreId) (dt : Nat)
  /-- QPUSH (R392). QPUSH pushes an item through a send entry, charging its credits, or waits or refuses when the credits are short. -/
  | qpush (u : CoreId) (dt : Met Nat EccErr)
  /-- QPUSH_RETRY (R454). A QPUSH waiting under TRY = 0 is retried in a later cycle and is accepted once its credits cover the item. -/
  | qpushRetry (u : Met CoreId EccErr)
  /-- QPOP (R393). QPOP takes the head item of a queue, lending from another queue when empty, or waits or reports empty. -/
  | qpop (u : CoreId) (dt : Met Nat EccErr)
  /-- QPOP_LEND_RETEST (R462). A waiting QPOP tests the queue and its lend queue again at each stage-queue sub-slot. -/
  | qpopLendRetest (u : Met CoreId EccErr)
  /-- QFLUSH (R449). QFLUSH discards the published items, advances GEN and sends flush notices to the producers. -/
  | qflush (u : CoreId) (dt : Nat)
  /-- QSTAT (R472). QSTAT writes the queue's status word to RD. -/
  | qstat (u : CoreId) (dt : Nat)
  /-- ITEM (R444). An arriving or local item is written at the tail and published, or dropped on a lack of room, a flight mismatch or a stale GEN. -/
  | item (k : Nat)
  /-- CREDIT (R438). A returned credit is added to the CREDITS of its send entry. -/
  | credit (k : Nat)
  /-- FLUSH (R450). A flush notice resets the send entry's CREDITS to QUOTA and tears any item part-way through its read. -/
  | flush (k : Nat)
  /-- QD_WRITE (R473). A write to a queue descriptor is discarded while EN is 1, and stores LEND_EN as 0 when the lend queue is illegal. -/
  | qdWrite (a : Access)
  /-- QS_WRITE (R436). A write to a send entry takes effect, and writing QUOTA sets CREDITS. -/
  | qsWrite (a : Access)
  /-- PSTORE_WRITE (R262). A write to the program store is discarded and recorded while the sequencer runs. -/
  | pstoreWrite (a : Access)
  /-- SWG_UCODE_WRITE (R217). A microcode-word write takes effect at once, or after a running microcoded decode completes. -/
  | swgUcodeWrite (a : Access)
  /-- SPD_WHEEL_WRITE (R345). A wheel-pattern write takes effect at the next turn, and is discarded while the sequencer runs. -/
  | spdWheelWrite (a : Access)
  /-- PAIR_STATE_WRITE (R348). A write to PAIR_STATE requests new bank-pair states, queued behind any transition in progress. -/
  | pairStateWrite (a : Access)
  /-- PAIR_TRANSITION_START (R331). A requested pair transition to RETAIN or OFF starts once no scoreboard entry or access covers the pair. -/
  | pairTransitionStart (u : CoreId) (p : Fin 8)
  /-- PAIR_TRANSITION_DONE (R329). A bank-pair transition completes, with a pair leaving OFF cleared to zero. -/
  | pairTransitionDone (u : CoreId) (p : Fin 8)
  /-- SCRUB_READ (R342). Every SCRUB_INTERVAL turns the scrubber reads the next ON row and writes back corrected words. -/
  | scrubRead (u : CoreId) (cancel : Bool) (ecc : List EccErr)
  /-- SCRUB_LATE (R344). A scrub pass that has not completed within its bound of turns sets SCRUB_LATE. -/
  | scrubLate (u : CoreId)
  /-- PATROL_SCRUB (R491). A memory controller's patrol scrub reads and corrects its memory once every SCRUB_H hours. -/
  | patrolScrub (m : McId) (corrected : List Nat) (bad : List Nat)
  /-- READ (R504). A read request arrives at its memory controller and is queued in arrival order for its line. -/
  | read (k : Nat) (t : Nat)
  /-- WRITE (R504). A write request arrives at its memory controller and is queued. -/
  | write (k : Nat) (t : Nat)
  /-- ATOMIC (R502). An atomic request arrives at its memory controller, to be applied in one step. -/
  | atomic (k : Nat) (t : Nat)
  /-- LEDGER_ADD (R508). A LEDGER_ADD request adds FP32 terms exactly into a ledger cell. -/
  | ledgerAdd (k : Nat) (t : Nat)
  /-- LEDGER_SETTLE (R511). A LEDGER_SETTLE request returns the cell's value as FP32, and empties the cell under CLEAR. -/
  | ledgerSettle (k : Nat) (t : Nat)
  /-- CONTROLLER_SERVE (R551). A memory controller serves its next queued request in key order: CRIT, then age, then priority, then urgency. -/
  | controllerServe (m : McId) (t : Nat) (rowHits : List Nat) (ecc : EccResult)
  /-- READ_DATA (R489). Read data returns to the requester, carrying poison marks where present. -/
  | readData (k : Nat)
  /-- COMPLETE (R505). A completion returns to the requester with its status and numeric events. -/
  | complete (k : Nat)
  /-- NACK (R631). An RSP NACK completes the source's operation with the status that its reason gives. -/
  | nack (k : Nat)
  /-- MOVE_GO (R514). A write of GO to a tier mover starts a page move after its checks, or fails with MOVE_BAD. -/
  | moveGo (a : Access)
  /-- MOVE_COPY_END (R515). The move's copy or a recopy pass ends, and another pass starts or the hold phase begins. -/
  | moveCopyEnd (m : Met (Fin 2) MemErr)
  /-- MOVE_SWITCH (R515). The last marked lines are copied, the translator entry is switched, held accesses are released, and DONE is set. -/
  | moveSwitch (m : Met (Fin 2) MemErr)
  /-- GETS (R520). The directory receives a cache read request and answers DATA_S, or RETRY while the line is busy. -/
  | gets (n : Fin 17) (line : Nat)
  /-- GETX (R522). The directory receives an ownership request and serves it in cache order, invalidating or recalling the holders; `together` says that it arrives in the cycle of the request for the line that was granted last. -/
  | getx (n : Fin 17) (line : Nat) (want : Ownership)
  /-- PUTM (R521). The directory accepts a writeback of an M line and updates memory. -/
  | putm (n : Fin 17) (line : Nat)
  /-- PUTE (R520). The directory receives the eviction of an E line. -/
  | pute (n : Fin 17) (line : Nat)
  /-- DATA_S (R520). A cache receives a shared copy of a line. -/
  | dataS (n : Fin 17) (line : Nat)
  /-- DATA_X (R525). A cache receives an exclusive line and performs its pending access. -/
  | dataX (n : Fin 17) (line : Nat)
  /-- ACK_X (R525). A cache receives an upgrade from S and performs its pending access. -/
  | ackX (n : Fin 17) (line : Nat)
  /-- WB_ACK (R521). A cache receives the acknowledgement of its writeback. -/
  | wbAck (n : Fin 17) (line : Nat)
  /-- RETRY (R523). A cache receives RETRY and schedules its reissue. -/
  | retry (n : Fin 17) (line : Nat)
  /-- REISSUE (R523). When the retry delay expires, the cache reissues its request. -/
  | reissue (n : Fin 17) (line : Nat)
  /-- INV (R520). A cache invalidates its copy of a line. -/
  | inv (n : Fin 17) (line : Nat)
  /-- RECALL (R525). A cache answers a recall by returning or releasing the line. -/
  | recall (n : Fin 17) (line : Nat)
  /-- WINDOW_BOUNDARY (R536). A 1 µs regulation window begins: counts are summed into the history, overdraft is logged and turned into debt, and held ports are released. -/
  | windowBoundary
  /-- SOP_MESSAGE (R566). A sluice operation arrives at its bank and acts by mode, then the bank retests the waiters, or the operation is refused or dropped. -/
  | sopMessage (k : Nat)
  /-- WAITER_RECORD (R574). A waiter record arrives at the bank and is tested at once, or is refused when the bank is full. -/
  | waiterRecord (k : Nat)
  /-- WAKE (R576). A wake reaches a core, freeing its wait-table entry and releasing the held WAIT or GATE. -/
  | wake (k : Nat)
  /-- SLUICE_ACK (R578). A bank's acknowledgement or refusal completes a posted SIGNAL, RESET or ARM. -/
  | sluiceAck (k : Nat)
  /-- SLUICE_POLL (R575). A wait-table entry whose record was refused tests its sluice every 1 µs. -/
  | sluicePoll (u : CoreId) (id : Nat)
  /-- TREE_ARRIVE (R586). A child's arrival adds 1 to a GLOBAL sluice's ARRIVED, which may send an arrival upward or release at the root. -/
  | treeArrive (k : Nat)
  /-- TREE_RELEASE (R587). A release acts at the chip as a barrier release and is forwarded to every child. -/
  | treeRelease (k : Nat)
  /-- SLUICE_REGISTER_WRITE (R591). A write to SLC_SLUICE_i acts as a RESET followed by an ARM. -/
  | sluiceRegisterWrite (a : Access)
  /-- SLC_PART_WRITE (R592). A write to SLC_PART_n sets a partition's sluice range, unless the range overlaps or overruns. -/
  | slcPartWrite (a : Access)
  /-- LINK_TRAINING_START (R601). Training of a link begins once LOCKED is 1 and the link is not held. -/
  | linkTrainingStart (l : LinkId)
  /-- TRAIN (R603). A TRAIN flit gives the partner's identity, and the link comes UP or records a cabling error. -/
  | train (l : LinkId) (info : TrainInfo)
  /-- TRAINING_RETRY (R604). A failed training attempt is repeated after 100 ms, and the link enters FAILED after three failures. -/
  | trainingRetry (l : LinkId)
  /-- FLIT_RECEIVE (R613). A DATA flit is received, checked, delivered in SEQ order with its ACK and credits applied, or discarded with a REPLAY. -/
  | flitReceive (l : LinkId) (frame : FrameRx) (t : Nat)
  /-- REPLAY (R615). A REPLAY record makes the sender resend from the named SEQ. -/
  | replay (l : LinkId) (seq : Nat)
  /-- REPLAY_REPEAT (R614). Every 200 ns the receiver repeats its REPLAY, and the link fast-retrains after 8 REPLAYs. -/
  | replayRepeat (l : LinkId)
  /-- NACK_RECORD (R632). A CTRL NACK record from the partner is received and logged. -/
  | nackRecord (l : LinkId) (rec : CtrlRec)
  /-- LINK_DOWN (R637). A link that leaves UP sends HANDOVER over the other link of its pair. -/
  | linkDown (l : LinkId)
  /-- HANDOVER (R637). A HANDOVER record makes the sender resend the later flits' messages on the other link. -/
  | handover (l : LinkId) (rec : CtrlRec)
  /-- HANDOVER_TIMEOUT (R638). After 10 µs without the other link UP, unacknowledged messages are discarded and answered with NACK LINK_LOST. -/
  | handoverTimeout (l : LinkId)
  /-- CREDIT_STALL (R635). Ten milliseconds without enough credits set STALL and quarantine the link. -/
  | creditStall (l : LinkId)
  /-- LINK_SWITCH_FORWARD (R626). The link switch routes a message to its next hop by lane order, moves it to lane 1, or drops it with NO_ROUTE. -/
  | linkSwitchForward (k : Nat)
  /-- LINK_HOLD_WRITE (R605). Writing HOLD puts a link in HELD, or releases it to train. -/
  | linkHoldWrite (a : Access)
  /-- RETRAIN (R604). Writing RETRAIN retrains the link from step 1. -/
  | retrain (a : Access)
  /-- UNQUAR (R636). Writing UNQUAR takes the link out of QUARANTINED and retrains it. -/
  | unquar (a : Access)
  /-- KLK_TOPOLOGY_WRITE (R47). A write to KLK_TOPOLOGY stores the values and checks them before setting LOCKED. -/
  | klkTopologyWrite (a : Access)
  /-- KEEPER (R639). A KEEPER message, such as a DOWN notice, enters the Keeper's MGMT inbox or is dropped when it is full. -/
  | keeper (k : Nat)
  /-- REWRITE (R467). A REWRITE message writes a queue register of a named core for a fallback map. -/
  | rewrite (k : Nat)
  /-- JOB_TAKE (R650). The engine takes descriptors from a ring for each doorbell unit above TAKEN, while it holds fewer than 32 jobs. -/
  | jobTake (e : TowId) (p : PartId) (t : Met (List Nat) MemErr)
  /-- JOB_START (R653). When the engine is free it starts the held job with the earliest deadline, or the next best-effort job, after descriptor checks. -/
  | jobStart (e : TowId) (t : Nat)
  /-- BATCH_POP (R665). The engine pops up to BATCH entries, discards stale ones, closes and expands the rest, and ends at GOAL, LIMIT or EXHAUSTED. -/
  | batchPop (e : TowId) (t : Met Nat MemErr)
  /-- EDGE_CHECK (R681). A checker runs an edge's class program once its records arrive, accepting or rejecting the edge. -/
  | edgeCheck (e : TowId) (t : Met Nat MemErr)
  /-- BATCH_RELAX (R669). After all checks of a batch, accepted edges relax their targets in order and insert new keys. -/
  | batchRelax (e : TowId) (t : Met Nat MemErr)
  /-- JOB_DEADLINE (R682). A job's elapsed time reaching LIMIT_NS ends it with DEADLINE_BEST or DEADLINE_KEEP. -/
  | jobDeadline (e : TowId) (id : Nat) (t : Nat)
  /-- JOB_RESULT_VISIBLE (R685). Once a job's result record is visible, the engine signals the DONE sluice. -/
  | jobResultVisible (e : TowId)
  /-- TOW_RING_WRITE (R687). A write to TOW_RING_p is discarded while EN is 1, apart from EN itself. -/
  | towRingWrite (a : Access)
  /-- SQ_TAIL_WRITE (R700). A doorbell write to SQ_TAIL makes the new slots available for fetch once earlier aperture writes are visible. -/
  | sqTailWrite (a : Access)
  /-- PACKET_FETCH (R701). The device fetches a packet's slots, advances SQ_HEAD, checks the header, and starts the packet in ring order. -/
  | packetFetch (fn : FnId) (ring : RingId) (host : Met (Option Bytes) MemErr)
  /-- STATUS_WRITE (R704). A status entry is written at CQ_TAIL, with PHASE. -/
  | statusWrite (fn : FnId) (cq : RingId)
  /-- CQ_HEAD_WRITE (R741). A CQ_HEAD write frees completion entries, releasing held statuses and fetch. -/
  | cqHeadWrite (a : Access)
  /-- COAL_TIMER (R706). When COAL_US expires, the completion ring sends its MSI-X vector. -/
  | coalTimer (fn : FnId) (cq : RingId)
  /-- CQ_STALL_TIMEOUT (R705). A completion ring full for 1 ms sets CQ_STALL. -/
  | cqStallTimeout (fn : FnId) (cq : RingId)
  /-- APERTURE_READ (R697). A host read through a BAR2 aperture is translated and returns data, or 0xFF bytes on failure. -/
  | apertureRead (fn : FnId) (addr : Nat) (n : Met Nat MemErr)
  /-- APERTURE_WRITE (R697). A host write through a BAR2 aperture is translated and written, or discarded on failure. -/
  | apertureWrite (fn : FnId) (addr : Nat) (data : Bytes) (ep : Bool)
  /-- PACKET_NOP (R709). The NOP packet completes with no effect. -/
  | packetNop (pid : Nat)
  /-- QUERY_PARTITION (R709). QUERY with SEL 0 returns partition information. -/
  | queryPartition (pid : Nat)
  /-- QUERY_CORES (R709). QUERY with SEL 1 returns core information. -/
  | queryCores (pid : Nat)
  /-- QUERY_LINKS (R709). QUERY with SEL 2 returns link state. -/
  | queryLinks (pid : Nat)
  /-- QUERY_TOPOLOGY (R709). QUERY with SEL 3 returns the topology. -/
  | queryTopology (pid : Nat)
  /-- QUERY_ERRORS (R794). QUERY with SEL 4 copies up to 64 new error records to the host. -/
  | queryErrors (pid : Nat)
  /-- PART_CREATE (R725). PART_CREATE checks and assigns a partition's resources, maps its windows and makes it ACTIVE. -/
  | partCreate (pid : Nat) (tableBase : Nat)
  /-- PART_STOP (R734). PART_STOP starts the grace, after which the partition powers down. -/
  | partStop (pid : Nat)
  /-- STOPPING_START (R734). At the end of the grace, or earlier once no task runs, the partition enters STOPPING. -/
  | stoppingStart (p : PartId)
  /-- STOPPING_COMPLETE (R735). Powering down completes, so the cores enter C2 or C3 and the partition becomes STOPPED. -/
  | stoppingComplete (p : PartId)
  /-- PART_START (R766). PART_START wakes a STOPPED partition's cores and makes it ACTIVE. -/
  | partStart (pid : Nat)
  /-- PART_DESTROY (R736). PART_DESTROY powers the partition down if needed and starts the teardown scrub. -/
  | partDestroy (pid : Nat)
  /-- TEARDOWN_SCRUB_DONE (R736). The teardown scrub completes, and the partition becomes FREE. -/
  | teardownScrubDone (p : PartId)
  /-- PART_MAP (R730). PART_MAP maps pages in the translator, and completes once every cache has dropped the old entries. -/
  | partMap (pid : Nat)
  /-- PART_UNMAP (R730). PART_MAP with its unmap code removes pages from the translator. -/
  | partUnmap (pid : Nat)
  /-- POWER_POLICY (R710). POWER_POLICY writes staged caps, share, FCAP or CSTATE and commits them. -/
  | powerPolicy (pid : Nat)
  /-- BW_POLICY (R554). BW_POLICY writes a class's staged regulation settings. -/
  | bwPolicy (pid : Nat)
  /-- LAUNCH (R716). LAUNCH checks its cores, loads their programs, clears, registers and queues, and starts their sequencers. -/
  | launch (pid : Met Nat MemErr)
  /-- LAUNCH_COMPLETE (R718). When every core's task has ended, the launch signals DONE and writes its status. -/
  | launchComplete (lid : Nat)
  /-- LAUNCH_TIMEOUT (R718). When TIMEOUT_US expires, the launch's cores are halted and the launch completes with TIMEOUT. -/
  | launchTimeout (lid : Nat)
  /-- SLUICE_OP (R722). The fast path applies a SLUICE_OP packet as a sluice operation of the partition. -/
  | sluiceOp (pid : Nat)
  /-- QUEUE_KICK (R723). QUEUE_KICK pushes an item through a host send entry, waiting for credits or completing with Q_FULL. -/
  | queueKick (pid : Nat)
  /-- ABORT (R714). ABORT halts the named launch's cores, and that launch completes with ABORTED. -/
  | abort (pid : Nat)
  /-- COPY (R712). COPY moves data between host and device, or within the chip, and signals DONE when the data is visible. -/
  | copy (pid : Nat) (host : Met (Option Bytes) MemErr)
  /-- MIGRATE (R713). MIGRATE moves a partition page to another tier through a tier mover. -/
  | migrate (pid : Nat) (choice : Nat)
  /-- TOW_LOAD (R709). TOW_LOAD loads check-program words into the partition's region on the masked engines. -/
  | towLoad (pid : Met Nat MemErr)
  /-- CORE_FENCE (R796). A fence cause closes the core's crossings, stops it, writes a record, and ends its task or applies a fallback map. -/
  | coreFence (u : CoreId) (cause : Nat)
  /-- CROSSING_WATCHDOG (R796). A crossing not accepting a handshake for 100 µs in C0 fences the core. -/
  | crossingWatchdog (u : CoreId)
  /-- CORRECTED_REPORT (R789). At the end of each 1 s interval, each unit that corrected errors writes one CORRECTED record. -/
  | correctedReport (source unit : Nat)
  /-- FALLBACK_MAP_APPLY (R467). A fenced core's map re-pushes its items, writes the rewrites, and copies state to a spare, or stops the flight with FLIGHT_LOST. -/
  | fallbackMapApply (u : CoreId) (readable : Met Bool MemErr)
  /-- CHIP_FAULT (R802). A CHIP-class fault takes the chip out of service, powering its partitions down and sending DOWN notices. -/
  | chipFault (source unit : Nat)
  /-- DOWN_NOTICE_TIMEOUT (R803). Both links of a pair to a chip being down for 1 ms make the chip send a DOWN notice. -/
  | downNoticeTimeout (chip : Nat)
  /-- KPR_FENCE_WRITE (R865). Writing 1 to a bit of KPR_FENCE fences that core. -/
  | kprFenceWrite (a : Access)
  /-- DBG_CTRL_EN_WRITE (R809). A PF write to DBG_CTRL.EN enables or disables debug mode, and is discarded while the core runs. -/
  | dbgCtrlEnWrite (a : Access)
  /-- HALT (R810). A debug HALT stops issue before the next instruction. -/
  | halt (a : Access)
  /-- STEP (R810). A debug STEP issues one instruction and halts again. -/
  | step (a : Access)
  /-- RESUME (R810). A debug RESUME continues issue. -/
  | resume (a : Access)
  /-- CAPTURE_TRIGGER (R813). A capture trigger fires on a PC match, a SWAP count or a status, and halts the core or starts a copy of the sets. -/
  | captureTrigger (u : CoreId)
  /-- CAPTURE_COPY_DONE (R813). A COPY capture finishes writing the sets, and the core resumes. -/
  | captureCopyDone (u : CoreId)
  /-- PMC_SEL_WRITE (R816). A write to PMC_SEL_i clears counter i and selects its event. -/
  | pmcSelWrite (a : Access)
  /-- KPR_EXPERT_WRITE (R850). A Keeper write to KPR_EXPERT sets lock bits, and a PF write to it is discarded. -/
  | kprExpertWrite (a : Access)
  /-- INT_EN_WRITE (R852). Enabling an interrupt source whose summary bit is already 1 sends its vector. -/
  | intEnWrite (a : Access)
  /-- TELEM_CFG_WRITE (R858). A write to the telemetry base or size is discarded while EN is 1. -/
  | telemCfgWrite (a : Access)
  /-- REGISTER_WRITE (R10). A write to a register with no row of its own stores legal fields, keeps illegal ones and records the event. -/
  | registerWrite (a : Access)
  /-- GET_STATUS (R895). The MCTP GET_STATUS command returns the boot, power-state, thermal and power status. -/
  | getStatus (junctionC hbmC measuredMw : Nat)
  /-- PSTATE_REQ (R896). An MCTP PSTATE_REQ requests RUN, STANDBY or OFF, and is answered BUSY or REFUSED where it applies. -/
  | pstateReq (target : BitVec 2)
  /-- TELEMETRY (R895). The MCTP TELEMETRY command returns the latest PMBus readings. -/
  | telemetry
  /-- CTL_P_RESET (R881). A CTL command gives the YZ2-KB block a P reset. -/
  | ctlPReset
  /-- CTL_C_RESET (R881). A CTL command gives the block a C reset. -/
  | ctlCReset
  /-- CTL_T_RESET (R760). A CTL command gives the block a T reset. -/
  | ctlTReset
  /-- CTL_K_RESET (R761). A CTL command gives the block a K reset. -/
  | ctlKReset
  /-- CTL_ENTER_STATE (R765). A CTL command requests power state C0 to C3 for the block. -/
  | ctlEnterState (arg : BitVec 12)
  /-- CTL_FENCE (R796). A CTL command fences the block. -/
  | ctlFence
  /-- CTL_START (R419). A CTL command starts the block's sequencer at a PC. -/
  | ctlStart (arg : BitVec 12)
  /-- CTL_HALT (R416). A CTL command halts the block's task. -/
  | ctlHalt
  /-- CTL_CLEAR (R334). A CTL command clears the named bank pairs. -/
  | ctlClear (arg : BitVec 12)
  /-- CTL_UNDEFINED (R900). An undefined CTL command is ignored and reported on STAT. -/
  | ctlUndefined (w : BitVec 16)
  /-- KB_RST_N (R881). Release of the block's RST_N completes a P reset within 20 µs. -/
  | kbRstN
  /-- KB_GRANT (R882). A GRANT accepted by the block starts an epoch, and the block sends its PWR request. -/
  | kbGrant (w : BitVec 32)
  /-- KB_GRANT_TIMEOUT (R882). Four microseconds without a grant make the block run at MIN and set EPOCH_LOST. -/
  | kbGrantTimeout
  /-- PROTO_FAULT (R875). REQ raised while the block's ACK is high sets PROTO_FAULT and fences the block. -/
  | protoFault (port : Nat)
  /-- TRQ_ACCESS (R870). A TRQ register access is served and answered on TRS. -/
  | trqAccess (hdr data : BitVec 64)
  /-- CORE_KB_CFG_WRITE (R900). A write to CORE_KB_CFG is discarded and reported while the block runs. -/
  | coreKbCfgWrite (hdr data : BitVec 64)
  /-- IDCODE (R897). The TAP IDCODE instruction selects the IDCODE register. -/
  | idcode
  /-- SAMPLE_PRELOAD (R897). The TAP SAMPLE/PRELOAD instruction. -/
  | samplePreload
  /-- EXTEST (R898). The TAP EXTEST instruction acts only while RESET_N is low. -/
  | extest
  /-- EXTEST_PULSE (R898). The IEEE 1149.6 EXTEST_PULSE instruction acts only while RESET_N is low. -/
  | extestPulse
  /-- EXTEST_TRAIN (R898). The IEEE 1149.6 EXTEST_TRAIN instruction acts only while RESET_N is low. -/
  | extestTrain
  /-- HBM_1500 (R898). The HBM_1500 instruction reaches the stacks' IEEE 1500 ports while RESET_N is low. -/
  | hbm1500
  /-- BYPASS (R897). BYPASS, or an undefined code, selects the bypass register. -/
  | bypass (code : BitVec 8)
  /-- REGISTER_READ (R843). A register read returns its value, clears every RC field it wholly returns, and can set UNMAPPED, ISLAND_OFF or DEBUG_ONLY or wake a C1 island. -/
  | registerRead (who : Requester) (off size : Nat)
  /-- CONFIGURATION_REQUEST (R753). A PCIe configuration request is answered with Request Retry Status before READY, and completed normally afterwards or after the 900 ms fallback. -/
  | configurationRequest (fn : FnId) (off : Nat)
  /-- UNDEFINED_OPCODE (R354). An instruction whose opcode is undefined (including 0x1F and 0x2F) is rejected at issue with OP_BAD. -/
  | undefinedOpcode (u : CoreId) (dt : Nat)
  /-- PWR_EN_ASSERT (R883). The board asserts PWR_EN, and the carrier starts raising the die and memory rails in the order of Table 20-9. -/
  | pwrEnAssert
  /-- PWR_GOOD_RISE (R883). The carrier finishes raising the rails and drives PWR_GOOD high, which allows RESET_N to be released 1 ms later. -/
  | pwrGoodRise
  /-- RESET_N_ASSERT (R898). The module reset input RESET_N is driven low, which holds the module in reset and enables the EXTEST family of TAP instructions. -/
  | resetNAssert
  /-- KB_RST_N_ASSERT (R881). The YZ2-KB block's RST_N input is asserted asynchronously, which places the block in reset. -/
  | kbRstNAssert
  /-- THERM_N_RELEASE (R888). When every junction sensor reads below 100 °C, THERM_N is deasserted and islands are no longer held at MIN. -/
  | thermNRelease (tempC : Nat)
  /-- TOWDL_URGENCY (R539). A TOWDL port's urgency rises as the running deadline job's elapsed fraction of LIMIT_NS crosses MID_AT, HIGH_AT or CRIT_AT. -/
  | towdlUrgency (e : TowId) (t : Nat)
  /-- TRAY_QUERY_RESEND (R895). Every 10 ms until it is answered, the module sends TRAY_QUERY to the board management controller. -/
  | trayQueryResend
deriving DecidableEq, Repr

end Sys2Proof
end

