-- ==== Sys2Proof/Decode.lean ====
section
/-! DEFINITION. Commands from table words. No row of the table of operations and events gives its command bits, so no word spells one. -/

namespace Sys2Proof

/-- The command that `nbits` bits of value `w` spell by the table: none, whatever the word. -/
def decodeTableWord (nbits w : Nat) : Option Instr :=
  match nbits, w with
  | _, _ => none

end Sys2Proof
end

