-- ==== Sys2Proof/Machine/Bits.lean ====
section
/-! DEFINITION. Bit fields, byte order (R5, R6) and sign extension. -/

namespace Sys2Proof.Machine

/-- Bits [lo + w − 1 : lo] of a number. -/
def bits (n lo w : Nat) : Nat := (n >>> lo) % 2 ^ w

/-- One bit of a number. -/
def bit (n i : Nat) : Bool := n.testBit i

/-- 1 for true. -/
def b2n (b : Bool) : Nat := if b then 1 else 0

/-- `n` with bits [lo + w − 1 : lo] replaced by the low bits of `v`. -/
def putBits (n lo w v : Nat) : Nat :=
  n % 2 ^ lo + (v % 2 ^ w) * 2 ^ lo + (n >>> (lo + w)) * 2 ^ (lo + w)

/-- The `n` low bytes of a number, least significant first (R5). -/
def toBytes : Nat → Nat → Bytes
  | 0, _ => []
  | n + 1, v => BitVec.ofNat 8 v :: toBytes n (v / 256)

/-- The number that a string of bytes spells, least significant first (R5). -/
def ofBytes : Bytes → Nat
  | [] => 0
  | b :: t => b.toNat + 256 * ofBytes t

/-- `n` bytes from position `i` of a string of bytes; bytes beyond its end are 0. -/
def sliceBytes (l : Bytes) (i n : Nat) : Bytes :=
  let t := (l.drop i).take n
  t ++ List.replicate (n - t.length) 0

/-- The number held in `n` bytes from position `i`. -/
def field (l : Bytes) (i n : Nat) : Nat := ofBytes (sliceBytes l i n)

/-- The bytes of `l` with those from position `i` replaced by `v`. -/
def putSlice (l : Bytes) (i : Nat) (v : Bytes) : Bytes :=
  l.take i ++ v ++ l.drop (i + v.length)

/-- A `w`-bit two's complement number as an integer. -/
def sext (w n : Nat) : Int := if n % 2 ^ w < 2 ^ (w - 1) then (n % 2 ^ w : Int) else (n % 2 ^ w : Int) - 2 ^ w

/-- An integer as a `w`-bit two's complement number. -/
def wrapN (w : Nat) (i : Int) : Nat := (i % 2 ^ w).toNat

/-- Addition that stops at 2^w − 1: counters that saturate. -/
def satAdd (w a b : Nat) : Nat := min (a + b) (2 ^ w - 1)

/-- The number of set bits among the low `w`. -/
def countOnes : Nat → Nat → Nat
  | 0, _ => 0
  | w + 1, n => (n % 2) + countOnes w (n / 2)

/-- The numbers of the set bits below `w`, rising. -/
def onesOf (w n : Nat) : List Nat := (List.range w).filter (fun i => n.testBit i)

/-- Rounds a quotient up. -/
def ceilDiv (a b : Nat) : Nat := (a + b - 1) / b

/-- A list cut into pieces of `k`, given enough fuel. -/
def chunks {α : Type} (k : Nat) : Nat → List α → List (List α)
  | 0, _ => []
  | _, [] => []
  | f + 1, l => l.take k :: chunks k f (l.drop k)

/-- Replaces element `i` of a list. -/
def setAt {α : Type} : List α → Nat → α → List α
  | [], _, _ => []
  | _ :: t, 0, v => v :: t
  | a :: t, i + 1, v => a :: setAt t i v

/-- Element `i` of a list, or `d` beyond its end. -/
def nth {α : Type} (l : List α) (i : Nat) (d : α) : α := l.getD i d

/-- Applies `f` for each element in order. -/
def foldS {α σ : Type} (l : List α) (s : σ) (f : σ → α → σ) : σ := l.foldl f s

/-- The sum of a function over a list. -/
def sumOf {α : Type} (l : List α) (f : α → Nat) : Nat := l.foldl (fun a x => a + f x) 0

end Sys2Proof.Machine
end

