-- ==== Sys2Proof/Machine/Flags.lean ====
section
/-! DEFINITION. The named statuses (each chapter's status table), the numeric flags of Table 03-7, and the global-status events of
Table 19-5. -/

namespace Sys2Proof.Machine

/-- Status 0x0. -/
def St.ok : Nat := 0x0
/-- Status 0x11. -/
def St.fmtMixed : Nat := 0x11
/-- Status 0x12. -/
def St.fmtRole : Nat := 0x12
/-- Status 0x13. -/
def St.scaleMissing : Nat := 0x13
/-- Status 0x21. -/
def St.descBad : Nat := 0x21
/-- Status 0x22. -/
def St.layoutRole : Nat := 0x22
/-- Status 0x23. -/
def St.ucodeBad : Nat := 0x23
/-- Status 0x24. -/
def St.sparseOrder : Nat := 0x24
/-- Status 0x25. -/
def St.sparseRange : Nat := 0x25
/-- Status 0x26. -/
def St.sparsePtr : Nat := 0x26
/-- Status 0x27. -/
def St.encFull : Nat := 0x27
/-- Status 0x31. -/
def St.statNone : Nat := 0x31
/-- Status 0x32. -/
def St.rowsBad : Nat := 0x32
/-- Status 0x33. -/
def St.convBad : Nat := 0x33
/-- Status 0x34. -/
def St.pcRange : Nat := 0x34
/-- Status 0x35. -/
def St.shapeBad : Nat := 0x35
/-- Status 0x41. -/
def St.redopBad : Nat := 0x41
/-- Status 0x42. -/
def St.redopSparse : Nat := 0x42
/-- Status 0x43. -/
def St.loadRange : Nat := 0x43
/-- Status 0x44. -/
def St.finBad : Nat := 0x44
/-- Status 0x51. -/
def St.spdOff : Nat := 0x51
/-- Status 0x52. -/
def St.spdUe : Nat := 0x52
/-- Status 0x53. -/
def St.spdAlign : Nat := 0x53
/-- Status 0x54. -/
def St.spdRange : Nat := 0x54
/-- Status 0x55. -/
def St.wheelRole : Nat := 0x55
/-- Status 0x61. -/
def St.opBad : Nat := 0x61
/-- Status 0x62. -/
def St.cfgBad : Nat := 0x62
/-- Status 0x63. -/
def St.idxRange : Nat := 0x63
/-- Status 0x64. -/
def St.queueBad : Nat := 0x64
/-- Status 0x65. -/
def St.qSize : Nat := 0x65
/-- Status 0x66. -/
def St.slcBad : Nat := 0x66
/-- Status 0x67. -/
def St.dmaRange : Nat := 0x67
/-- Status 0x71. -/
def St.qTorn : Nat := 0x71
/-- Status 0x72. -/
def St.flightLost : Nat := 0x72
/-- Status 0x81. -/
def St.dmaDesc : Nat := 0x81
/-- Status 0x82. -/
def St.atomBad : Nat := 0x82
/-- Status 0x83. -/
def St.dmaAlign : Nat := 0x83
/-- Status 0x84. -/
def St.dmaXlate : Nat := 0x84
/-- Status 0x85. -/
def St.memNochip : Nat := 0x85
/-- Status 0x86. -/
def St.memUe : Nat := 0x86
/-- Status 0x87. -/
def St.moveBad : Nat := 0x87
/-- Status 0x91. -/
def St.slcMode : Nat := 0x91
/-- Status 0x92. -/
def St.slcRemote : Nat := 0x92
/-- Status 0xa1. -/
def St.linkLost : Nat := 0xa1
/-- Status 0xa2. -/
def St.noRoute : Nat := 0xa2
/-- Status 0xb1. -/
def St.towDesc : Nat := 0xb1
/-- Status 0xb2. -/
def St.towProg : Nat := 0xb2
/-- Status 0xb3. -/
def St.towMem : Nat := 0xb3
/-- Status 0xb4. -/
def St.towRange : Nat := 0xb4
/-- Status 0xc1. -/
def St.pktBad : Nat := 0xc1
/-- Status 0xc2. -/
def St.opcBad : Nat := 0xc2
/-- Status 0xc3. -/
def St.partBad : Nat := 0xc3
/-- Status 0xc4. -/
def St.partDown : Nat := 0xc4
/-- Status 0xc5. -/
def St.partRes : Nat := 0xc5
/-- Status 0xc6. -/
def St.coreBusy : Nat := 0xc6
/-- Status 0xc7. -/
def St.coreFenced : Nat := 0xc7
/-- Status 0xc8. -/
def St.qFull : Nat := 0xc8
/-- Status 0xc9. -/
def St.aborted : Nat := 0xc9
/-- Status 0xca. -/
def St.timeout : Nat := 0xca
/-- Status 0xcb. -/
def St.hostFault : Nat := 0xcb
/-- Status 0xd1. -/
def St.chipDown : Nat := 0xd1

/-- Numeric flag bits (Table 03-7). -/
def Nf.inv : Nat := 1
def Nf.nanin : Nat := 2
def Nf.blknan : Nat := 4
def Nf.ovf : Nat := 8
def Nf.satd : Nat := 16
def Nf.unf : Nat := 32
def Nf.iflush : Nat := 64
def Nf.iwrap : Nat := 128

/-- Global-status events (Table 19-5). -/
def Gs.illegal : Nat := 0
def Gs.topology : Nat := 1
def Gs.busyWrite : Nat := 2
def Gs.debugOnly : Nat := 3
def Gs.unmapped : Nat := 4
def Gs.islandOff : Nat := 5
def Gs.target : Nat := 6
def Gs.streamDrop : Nat := 7
def Gs.locked : Nat := 8
def Gs.logWrap : Nat := 15

end Sys2Proof.Machine
end

