-- ==== Sys2Proof/Machine/Val.lean ====
section
/-! DEFINITION. The exact numbers that a value is while it is computed with (03_number_formats.md): every finite operand, product and sum of
the part is an integer times a power of two. -/

namespace Sys2Proof.Machine

/-- An exact value: (−1)^neg × m × 2^e, an infinity, or a NaN. A zero keeps its sign. -/
inductive Val where
  | num (neg : Bool) (m : Nat) (e : Int)
  | inf (neg : Bool)
  | nan
deriving DecidableEq, Repr

/-- A format with an exponent (Table 03-2): its width, exponent and mantissa bits, bias; whether it has infinities; whether its subnormals are
flushed (R113) instead of kept (R114); its largest finite and NaN encodings (Table 03-3). -/
structure FpFmt where
  w      : Nat
  eb     : Nat
  mb     : Nat
  bias   : Nat
  hasInf : Bool
  flush  : Bool
  maxFin : Nat
  nanEnc : Nat
deriving DecidableEq, Repr

end Sys2Proof.Machine
end

