-- ==== Sys2Proof/Machine/Num.lean ====
section
/-! DEFINITION. Number formats, rounding, folding and conversion (03_number_formats.md). A function that can set numeric flags answers
its result and the flag bits of Table 03-7. -/

namespace Sys2Proof.Machine

/-! ### Formats -/

/-- The formats with an exponent, by code of Table 03-1. -/
def fpFmt (code : Nat) : FpFmt :=
  match code with
  | 1 => ⟨16, 8, 7, 127, true, true, 0x7F7F, 0x7FC0⟩
  | 2 => ⟨16, 5, 10, 15, true, true, 0x7BFF, 0x7E00⟩
  | 3 => ⟨8, 4, 3, 7, false, false, 0x7E, 0x7F⟩
  | 4 => ⟨8, 5, 2, 15, true, false, 0x7B, 0x7E⟩
  | 5 => ⟨6, 3, 2, 3, false, false, 0x1F, 0x20⟩
  | 6 => ⟨4, 2, 1, 1, false, false, 0x7, 0x8⟩
  | _ => ⟨32, 8, 23, 127, true, true, 0x7F7FFFFF, 0x7FC00000⟩

/-- INT8, INT4 and INT32. -/
def isInt (code : Nat) : Bool := decide (code = 7) || decide (code = 8) || decide (code = 9)

/-- Bits of one element (Table 03-2); a pair result has 64. -/
def eltBits (code : Nat) : Nat :=
  match code with
  | 0 => 32
  | 1 => 16
  | 2 => 16
  | 3 => 8
  | 4 => 8
  | 5 => 6
  | 6 => 4
  | 7 => 8
  | 8 => 4
  | 9 => 32
  | _ => 64

/-- Roles of Table 03-1: an MMA operand, and an output. -/
def isOperand (code : Nat) : Bool := decide (1 ≤ code) && decide (code ≤ 8)
def isOutput (code : Nat) : Bool := decide (code ≤ 10)

/-- The formats that may carry block scales (R120), and those that must (R112). -/
def maybeScaled (code : Nat) : Bool := decide (3 ≤ code) && decide (code ≤ 6)
def mustScale (code : Nat) : Bool := decide (code = 5) || decide (code = 6)

/-! ### Decoding -/

/-- An encoding is a NaN (Table 03-2). -/
def isNanEnc (f : FpFmt) (x : Nat) : Bool :=
  let ex := bits x f.mb f.eb
  let ma := bits x 0 f.mb
  if f.hasInf then decide (ex = 2 ^ f.eb - 1) && decide (ma ≠ 0)
  else if f.w = 8 then decide (ex = 15) && decide (ma = 7)
  else decide (x % 2 ^ f.w = f.nanEnc)

/-- The value of an encoding of a format with an exponent. -/
def fpVal (f : FpFmt) (x : Nat) : Val :=
  let neg := x.testBit (f.w - 1)
  let ex := bits x f.mb f.eb
  let ma := bits x 0 f.mb
  if isNanEnc f x then .nan
  else if f.hasInf ∧ ex = 2 ^ f.eb - 1 then .inf neg
  else if ex = 0 then .num neg ma (1 - (f.bias : Int) - f.mb)
  else .num neg (2 ^ f.mb + ma) ((ex : Int) - f.bias - f.mb)

/-- An integer as a value. -/
def intVal (i : Int) : Val := .num (decide (i < 0)) i.natAbs 0

/-- The value of an encoding of any operand format, without block scale. -/
def eltVal (code x : Nat) : Val :=
  if isInt code then intVal (sext (eltBits code) x) else fpVal (fpFmt code) x

/-- A subnormal of FP32, BF16 or FP16. -/
def isSubEnc (code x : Nat) : Bool :=
  let f := fpFmt code
  !(isInt code) && f.flush && decide (bits x f.mb f.eb = 0) && decide (bits x 0 f.mb ≠ 0)

/-- A value read as an operand, row scale, bias or LOAD partial: FP32, BF16 and FP16 subnormals become zero of their sign (R113). -/
def readVal (code x : Nat) : Val × Nat :=
  if isSubEnc code x then (.num (x.testBit (eltBits code - 1)) 0 0, Nf.iflush) else (eltVal code x, 0)

/-- Times 2^k. -/
def Val.scale (v : Val) (k : Int) : Val :=
  match v with
  | .num n m e => .num n m (e + k)
  | .inf n => .inf n
  | .nan => .nan

/-- The flags that reading an element sets: BLKNAN and NANIN for a block code of 0xFF (R118), NANIN for a NaN (R139, Table 03-7), IFLUSH for a
flushed subnormal (R113). -/
def readFlags (code enc scale : Nat) : Nat :=
  if scale = 255 then Nf.blknan ||| Nf.nanin
  else if isInt code then 0
  else (match eltVal code enc with
    | .nan => Nf.nanin
    | .num _ _ _ => 0
    | .inf _ => 0) ||| (if isSubEnc code enc then Nf.iflush else 0)

/-- An element under block code `c` (R117, R118). -/
def blockVal (c : Nat) (v : Val) : Val := if c = 255 then .nan else v.scale ((c : Int) - 127)

def Val.isNan : Val → Bool
  | .nan => true
  | .num _ _ _ => false
  | .inf _ => false

def Val.isInf : Val → Bool
  | .inf _ => true
  | .num _ _ _ => false
  | .nan => false

def Val.isZero : Val → Bool
  | .num _ m _ => decide (m = 0)
  | .inf _ => false
  | .nan => false

def Val.sign : Val → Bool
  | .num n _ _ => n
  | .inf n => n
  | .nan => false

def Val.neg : Val → Val
  | .num n m e => .num (!n) m e
  | .inf n => .inf (!n)
  | .nan => .nan

/-- The plain zero. -/
def Val.zero : Val := .num false 0 0

/-! ### Exact arithmetic -/

/-- The exponent of the leading bit of m × 2^e. -/
def lead (m : Nat) (e : Int) : Int := (m.log2 : Int) + e

/-- m × 2^k, toward zero. -/
def shiftBy (m : Nat) (k : Int) : Nat := if 0 ≤ k then m * 2 ^ k.toNat else m / 2 ^ (-k).toNat

/-- A finite value in units of 2^lsb, toward zero. -/
def unitsOf (lsb : Int) : Val → Int
  | .num n m e => if n then -(shiftBy m (e - lsb) : Int) else shiftBy m (e - lsb)
  | .inf _ => 0
  | .nan => 0

/-- A zero sum: −0 where every addend is −0, else +0. DEDUCED from Worked case 10-1 step 2, where a cancelling sum gives +0. -/
def zeroSum (l : List Val) : Val := .num (!l.isEmpty && l.all (fun v => v.sign)) 0 0

/-- The least exponent among the nonzero numbers of a list. -/
def lowExp (l : List Val) : Int :=
  (l.filterMap (fun v => match v with
    | .num _ m e => if m = 0 then none else some e
    | .inf _ => none
    | .nan => none)).foldl (fun a e => min a e) (2 ^ 40)

/-- The exact sum of a list: NaN with INV for infinities of opposite sign, whatever else the list holds (R140, R151); NaN where one is NaN. -/
def valSum (l : List Val) : Val × Nat :=
  let p := l.any (fun v => v.isInf && !v.sign)
  let n := l.any (fun v => v.isInf && v.sign)
  if p && n then (.nan, Nf.inv)
  else if l.any Val.isNan then (.nan, 0)
  else if p || n then (.inf n, 0)
  else
    let lsb := lowExp l
    let t := l.foldl (fun a v => a + (if v.isZero then 0 else unitsOf lsb v)) (0 : Int)
    if t = 0 then (zeroSum l, 0) else (.num (decide (t < 0)) t.natAbs lsb, 0)

/-- The exact product; infinity times zero is NaN with INV (R140), a NaN operand NaN with NANIN (R139). -/
def valMul (a b : Val) : Val × Nat :=
  match a, b with
  | .nan, _ => (.nan, Nf.nanin)
  | .num _ _ _, .nan => (.nan, Nf.nanin)
  | .inf _, .nan => (.nan, Nf.nanin)
  | .inf n, .inf k => (.inf (n != k), 0)
  | .inf n, .num k m _ => if m = 0 then (.nan, Nf.inv) else (.inf (n != k), 0)
  | .num n m _, .inf k => if m = 0 then (.nan, Nf.inv) else (.inf (n != k), 0)
  | .num n m e, .num k p f => (.num (n != k) (m * p) (if m = 0 ∨ p = 0 then 0 else e + f), 0)

/-- a < b of two values that are not NaN; zeros are equal. -/
def valLt (a b : Val) : Bool :=
  match a, b with
  | .nan, _ => false
  | .num _ _ _, .nan => false
  | .inf _, .nan => false
  | .inf n, .inf k => n && !k
  | .inf n, .num _ _ _ => n
  | .num _ _ _, .inf k => !k
  | .num n m e, .num k p f =>
    let lsb := min (if m = 0 then f else e) (if p = 0 then e else f)
    decide ((if m = 0 then 0 else unitsOf lsb (.num n m e)) < (if p = 0 then 0 else unitsOf lsb (.num k p f)))

/-- The magnitude of a value. -/
def Val.abs : Val → Val
  | .num _ m e => .num false m e
  | .inf _ => .inf false
  | .nan => .nan

/-! ### Rounding and conversion -/

/-- m / 2^sh to nearest, ties to even. -/
def rne (m sh : Nat) : Nat :=
  let q := m / 2 ^ sh
  let r := m % 2 ^ sh
  if 2 * r < 2 ^ sh then q else if 2 ^ sh < 2 * r then q + 1 else q + q % 2

/-- Rounds m × 2^e to `p` significant bits: toward zero where `trunc`, else to nearest even (R127, R133). -/
def roundSig (p : Nat) (trunc : Bool) (m : Nat) (e : Int) : Nat × Int :=
  let n := m.log2 + 1
  if n ≤ p then (m, e) else (if trunc then m / 2 ^ (n - p) else rne m (n - p), e + ((n - p : Nat) : Int))

/-- Rounds m × 2^e to nearest even at multiples of 2^lsb. -/
def roundAt (lsb : Int) (m : Nat) (e : Int) : Nat × Int :=
  if lsb ≤ e then (m * 2 ^ (e - lsb).toNat, lsb) else (rne m (lsb - e).toNat, lsb)

/-- A value rounded to a binary format with `p` significant bits and the exponent range of FP32, which is that of A22: below 2^−126 it becomes
zero with its sign and UNF; above the largest finite value it saturates or becomes infinite (R128, R133 to R135, R273). -/
def roundBin (p : Nat) (sat trunc : Bool) (v : Val) : Val × Nat :=
  match v with
  | .nan => (.nan, 0)
  | .inf n => (.inf n, 0)
  | .num n m e =>
    if m = 0 then (.num n 0 0, 0)
    else
      let r := roundSig p trunc m e
      let ld := lead r.1 r.2
      if ld < -126 then (.num n 0 0, Nf.unf)
      else if 127 < ld then
        if sat then (.num n (2 ^ p - 1) (128 - (p : Int)), Nf.ovf ||| Nf.satd) else (.inf n, Nf.ovf)
      else (.num n r.1 r.2, 0)

/-- Folding into A22 under RND (R126 to R128). -/
def foldA22 (rnd sat : Bool) (v : Val) : Val × Nat := roundBin 14 sat (!rnd) v

/-- Rounding to FP32. -/
def toFp32 (sat : Bool) (v : Val) : Val × Nat := roundBin 24 sat false v

/-- The sign bit of a format. -/
def signBit (f : FpFmt) (n : Bool) : Nat := if n then 2 ^ (f.w - 1) else 0

/-- The zero of a format: F6 and F4 have no negative zero (R115). -/
def zeroEnc (f : FpFmt) (n : Bool) : Nat := if f.w < 8 then 0 else signBit f n

/-- The encoding of m × 2^e ≠ 0 that the format can hold exactly. -/
def packFp (f : FpFmt) (n : Bool) (m : Nat) (e : Int) : Nat :=
  let ld := lead m e
  let low : Int := 1 - (f.bias : Int)
  if low ≤ ld then signBit f n + (ld + f.bias).toNat * 2 ^ f.mb + (shiftBy m (e - ld + f.mb) - 2 ^ f.mb)
  else signBit f n + shiftBy m (e - low + f.mb)

/-- The magnitude of the largest finite value. -/
def maxVal (f : FpFmt) : Val := fpVal f f.maxFin

/-- Conversion to a format with an exponent (R133 to R135, R138, R141, R142). -/
def convFp (f : FpFmt) (sat : Bool) (v : Val) : Nat × Nat :=
  match v with
  | .nan => (f.nanEnc, 0)
  | .inf n =>
    if f.hasInf then (signBit f n + (2 ^ f.eb - 1) * 2 ^ f.mb, 0)
    else if sat then (signBit f n + f.maxFin, Nf.satd) else (f.nanEnc, Nf.inv)
  | .num n m e =>
    if m = 0 then (zeroEnc f n, 0)
    else
      let low : Int := 1 - (f.bias : Int)
      let r := if f.flush then roundSig (f.mb + 1) false m e else roundAt (max (lead m e) low - f.mb) m e
      if r.1 = 0 ∨ (f.flush ∧ lead r.1 r.2 < low) then (zeroEnc f n, Nf.unf)
      else if valLt (maxVal f) (.num false r.1 r.2) then
        if sat then (signBit f n + f.maxFin, Nf.ovf ||| Nf.satd)
        else if f.hasInf then (signBit f n + (2 ^ f.eb - 1) * 2 ^ f.mb, Nf.ovf) else (f.nanEnc, Nf.ovf)
      else (packFp f n r.1 r.2, 0)

/-- Conversion to an integer format of `w` bits (R137, R138, R141): nearest even, then saturation; a NaN gives 0. -/
def convInt (w : Nat) (v : Val) : Nat × Nat :=
  match v with
  | .nan => (0, Nf.inv)
  | .inf n => (if n then 2 ^ (w - 1) else 2 ^ (w - 1) - 1, Nf.satd)
  | .num n m e =>
    let r := (roundAt 0 m e).1
    let lim := if n then 2 ^ (w - 1) else 2 ^ (w - 1) - 1
    if lim < r then (if n then 2 ^ (w - 1) else lim, Nf.ovf ||| Nf.satd)
    else (wrapN w (if n then -(r : Int) else r), if r = 0 ∧ m ≠ 0 then Nf.unf else 0)

/-- Conversion to any single-word output format. -/
def convTo (code : Nat) (sat : Bool) (v : Val) : Nat × Nat :=
  if isInt code then convInt (eltBits code) v else convFp (fpFmt code) sat v

/-- The FP32 encoding of a value. -/
def enc32 (sat : Bool) (v : Val) : Nat × Nat := convFp (fpFmt 0) sat v

/-- The value of an FP32 encoding as it is held: no flush. -/
def dec32 (x : Nat) : Val := fpVal (fpFmt 0) (x % 2 ^ 32)

/-! ### What counts as zero (R155 to R158) -/

/-- The encodings of Table 04-1. -/
def zeroCode (code x : Nat) : Bool :=
  match code with
  | 0 => decide (bits x 23 8 = 0)
  | 1 => decide (bits x 7 8 = 0)
  | 2 => decide (bits x 10 5 = 0)
  | 3 => decide (x % 128 = 0)
  | 4 => decide (x % 128 = 0)
  | 5 => decide (x % 64 = 0)
  | 6 => decide (x % 16 = 0)
  | 7 => decide (x % 256 = 0)
  | 8 => decide (x % 16 = 0)
  | _ => false

/-- A NaN or an infinity: what makes a lane special (R190). -/
def Val.special (v : Val) : Bool := v.isNan || v.isInf

/-! ### Products, group sums and promotion -/

/-- The folded product of two elements under their block codes (R126, R186). The sizes of the integer formats are exact in I22. -/
def foldProduct (code : Nat) (rnd sat : Bool) (x cx y cy : Nat) : Val × Nat :=
  if isInt code then valMul (eltVal code x) (eltVal code y)
  else
    let p := valMul (blockVal cx (readVal code x).1) (blockVal cy (readVal code y).1)
    let f := foldA22 rnd sat p.1
    (f.1, p.2 ||| f.2)

/-- The exponent of the leading bit of the largest nonzero number of a list. -/
def topLead (l : List Val) : Option Int :=
  l.foldl (fun a v => match v with
    | .num _ m e => if m = 0 then a else some (match a with
      | some b => max b (lead m e)
      | none => lead m e)
    | .inf _ => a
    | .nan => a) none

/-- The sum of a group of folded products: bits below 2^(B − 48) of each are discarded, and the rest is summed exactly (R130, R150, R151). -/
def groupSum (l : List Val) : Val × Nat :=
  match topLead l with
  | none => valSum l
  | some b =>
    if l.any Val.special then valSum l
    else
      let t := l.foldl (fun a v => a + (if v.isZero then 0 else unitsOf (b - 48) v)) (0 : Int)
      if t = 0 then (zeroSum l, 0) else (.num (decide (t < 0)) t.natAbs (b - 48), 0)

/-- Promotion of a group sum into a floating-point entry (Table 06-1, R131, R272 to R274): sum in bits [31:0], error term in [63:32]. Under
COMP 0 the entry holds a sum alone. -/
def promoteFp (comp sat : Bool) (v : Nat) (g : Val) : Nat × Nat :=
  let x := valSum [dec32 v, g]
  let s' := toFp32 sat x.1
  let fl := x.2 ||| s'.2
  if !comp || s'.1.special || decide (s'.2 &&& Nf.satd ≠ 0) then ((enc32 false s'.1).1, fl)
  else
    let r := valSum [x.1, s'.1.neg]
    let e := toFp32 false (valSum [dec32 (v / 2 ^ 32), r.1]).1
    ((enc32 false s'.1).1 + (enc32 false e.1).1 * 2 ^ 32, fl ||| e.2)

/-- Promotion into an INT48 entry, modulo 2^48 with IWRAP (R132); the entry is held sign-extended to 64 bits. -/
def promoteInt (v : Nat) (g : Int) : Nat × Nat :=
  let t := sext 48 v + g
  (wrapN 64 (sext 48 (wrapN 48 t)), if t < -(2 ^ 47) ∨ 2 ^ 47 ≤ t then Nf.iwrap else 0)

/-- The integer of an exact value that is one. -/
def Val.toInt : Val → Int
  | .num n m e => if n then -(shiftBy m e : Int) else shiftBy m e
  | .inf _ => 0
  | .nan => 0

/-- Promotion under a bitwise tree operator (Table 06-5): AND and ALL combine by AND, OR and ANY by OR, XOR by XOR. -/
def promoteBit (treeop v g : Nat) : Nat :=
  let w := v % 2 ^ 48
  let r := if treeop = 1 ∨ treeop = 5 then w &&& g else if treeop = 3 then w ^^^ g else w ||| g
  wrapN 64 (sext 48 r)

/-- The identity that NEW starts an entry with (Table 06-5); +0 for floating point is 0 too. -/
def newIdentity (code treeop : Nat) : Nat :=
  if treeop = 1 then 2 ^ eltBits code - 1 else if treeop = 5 then 1 else 0

/-- The lane result of a bitwise PEOP on two element encodings (Table 06-4). -/
def laneBits (peop w x y : Nat) : Nat :=
  match peop with
  | 1 => (x &&& y) % 2 ^ w
  | 2 => (x ||| y) % 2 ^ w
  | 3 => (x ^^^ y) % 2 ^ w
  | _ => (2 ^ w - 1) ^^^ ((x ^^^ y) % 2 ^ w)

/-- The group sum of bitwise lane results (Table 06-5). -/
def groupBits (treeop w : Nat) (l : List Nat) : Nat :=
  match treeop with
  | 0 => sumOf l (countOnes w)
  | 1 => l.foldl (fun a x => a &&& x) (2 ^ w - 1)
  | 2 => l.foldl (fun a x => a ||| x) 0
  | 3 => l.foldl (fun a x => a ^^^ x) 0
  | 4 => b2n (l.any (fun x => decide (x ≠ 0)))
  | _ => b2n (l.all (fun x => decide (x ≠ 0)))

end Sys2Proof.Machine
end

