-- ==== Sys2Proof/Config.lean ====
section
/-! DEFINITION. The free values: what the specification leaves undefined or gives no result for. Each is a constant with no body, so no
proof can lean on a value of it. A generation number makes every new period of undefined contents a new value. -/

namespace Sys2Proof.Config

/-- A program store word after P or after leaving C3 (Table 05-7 reset U; R768): core, generation, word. -/
opaque freeProgram : Nat → Nat → Nat → BitVec 128

/-- A descriptor slot after P or after leaving C3 (Table 04-6; R768): core, generation, slot. -/
opaque freeDesc : Nat → Nat → Nat → BitVec 512

/-- A microcode word after P or after leaving C3 (R768): core, generation, word. -/
opaque freeUcode : Nat → Nat → Nat → BitVec 32

/-- A Towpath program word after P (Table 14-6 reset U): engine, generation, word. -/
opaque freeTowProg : Nat → Nat → Nat → BitVec 32

/-- An accumulator entry of an array whose decode stopped (R173): core, generation, entry. -/
opaque freeAcc : Nat → Nat → Nat → BitVec 64

/-- A trace entry that no event has written (Table 17-9 reset U): core, entry. -/
opaque freeTrace : Nat → Nat → BitVec 128

/-- An error-record slot that no record has been written to (Table 19-6 reset U). -/
opaque freeErrec : Nat → BitVec 512

/-- A word that LDG loads in a job without a GOAL (Table 14-4 names none). -/
opaque freeGoalWord : Nat → BitVec 32

/-- Cycles that an event of Table 17-8 lasts, which no state of a model without a clock gives: core, event, the core's cycles, the counter's count. -/
opaque heldCycles : Nat → Nat → Nat → Nat → Nat

/-- Whether a controller's memory is above 85 °C (MC_STATUS.HOT, Table 10-10), which no command reports: controller, epoch, free values drawn. -/
opaque memoryHot : Nat → Nat → Nat → Bool

/-- A value that the specification does not state, drawn for the n-th time in a run. -/
opaque freeValue : Nat → BitVec 64

end Sys2Proof.Config
end

