-- ==== Sys2Proof/Machine/Fields.lean ====
section
/-! DEFINITION. The register fields of the part: for each field of the manual's register tables its block, offset, position, width,
access code (Table 00-3), reset value and the letters of the resets that clear it (R13, R14). -/

namespace Sys2Proof.Machine

/-- The register blocks of Tables 19-1 and 19-2. -/
inductive Blk where
  | klk
  | rsv
  | weir
  | acc
  | swg
  | seam
  | core
  | spd
  | dma
  | mc
  | mcMove
  | bwr
  | slc
  | tow
  | cmd
  | part
  | kpr
  | dbg
deriving DecidableEq, Repr

/-- The access codes of Table 00-3; `int` is the interrupt summary, whose bits 9 and 10 alone are W1C (Table 19-4). -/
inductive Acc where
  | ro
  | rw
  | wo
  | w1c
  | w1s
  | rc
  | int
deriving DecidableEq, Repr

/-- The Reset column (R13): a value, a fused value, or a value that the tables give index by index. -/
inductive Rst where
  | val (n : Nat)
  | fuse
  | byIndex
deriving DecidableEq, Repr

/-- The Cleared by column (R14). -/
structure Clears where
  p : Bool
  c : Bool
  t : Bool
  k : Bool
  l : Bool
deriving DecidableEq, Repr

/-- One row of a register table: `count` copies, `stride` bytes apart, of bits [lo + w − 1 : lo] at byte `off` of the block. A
stride of 0 marks the window table of PART, whose entry n × 8 + w lies at 0x10 + 0x100n + 8w. -/
structure FieldSpec where
  blk    : Blk
  off    : Nat
  stride : Nat
  count  : Nat
  lo     : Nat
  w      : Nat
  acc    : Acc
  rst    : Rst
  clr    : Clears
deriving DecidableEq, Repr

/-- The fields. -/
inductive Fld where
  /-- 01 Table 01-9 -/
  | klkChipNum
  /-- 01 Table 01-9 -/
  | klkTrayLog2
  /-- 01 Table 01-9 -/
  | klkStrapSlot
  /-- 01 Table 01-9 -/
  | klkLocked
  /-- 02 Table 02-6 -/
  | rsvPeakW
  /-- 02 Table 02-6 -/
  | rsvSustainW
  /-- 02 Table 02-6 -/
  | rsvDepth
  /-- 02 Table 02-6 -/
  | rsvAccount
  /-- 02 Table 02-6 -/
  | rsvPStaticMw
  /-- 02 Table 02-6 -/
  | rsvVddMv
  /-- 02 Table 02-6 -/
  | rsvShareWeight
  /-- 02 Table 02-9 -/
  | rsvLossCode
  /-- 02 Table 02-9 -/
  | rsvLossPartition
  /-- 02 Table 02-9 -/
  | rsvLossPartValid
  /-- 02 Table 02-9 -/
  | rsvLossCount
  /-- 02 Table 02-7 -/
  | weirUpWMs
  /-- 02 Table 02-7 -/
  | weirDownWMs
  /-- 02 Table 02-7 -/
  | weirMinW
  /-- 02 Table 02-7 -/
  | weirThrottleC
  /-- 02 Table 02-7 -/
  | weirPaceSrc
  /-- 02 Table 02-7 -/
  | weirMaster
  /-- 02 Table 02-7 -/
  | weirFreeW
  /-- 02 Table 02-7 -/
  | weirOffset
  /-- 02 Table 02-7 -/
  | weirStride
  /-- 02 Table 02-7 -/
  | weirSlotNow
  /-- 02 Table 02-8 -/
  | weirFuseUpMin
  /-- 02 Table 02-8 -/
  | weirFuseUpMax
  /-- 02 Table 02-8 -/
  | weirFuseDownMin
  /-- 02 Table 02-8 -/
  | weirFuseDownMax
  /-- 02 Table 02-8 -/
  | weirFusePeakMaxW
  /-- 02 Table 02-8 -/
  | weirFuseDepthMax
  /-- 02 Table 02-8 -/
  | weirFusePaceLock
  /-- 02 Table 02-9 -/
  | weirClamped
  /-- 02 Table 02-9 -/
  | weirShortfall
  /-- 02 Table 02-9 -/
  | weirBreach
  /-- 02 Table 02-9 -/
  | weirPaceLost
  /-- 02 Table 02-9 -/
  | weirPolicyLoss
  /-- 02 Table 02-9 -/
  | weirRampOpen
  /-- 02 Table 02-9 -/
  | weirFloor
  /-- 02 Table 02-9 -/
  | weirSrcInUse
  /-- 02 Table 02-9 -/
  | weirMultiMaster
  /-- 03 Table 03-7 -/
  | numInv
  /-- 03 Table 03-7 -/
  | numNanin
  /-- 03 Table 03-7 -/
  | numBlknan
  /-- 03 Table 03-7 -/
  | numOvf
  /-- 03 Table 03-7 -/
  | numSatd
  /-- 03 Table 03-7 -/
  | numUnf
  /-- 03 Table 03-7 -/
  | numIflush
  /-- 03 Table 03-7 -/
  | numIwrap
  /-- 04 Table 04-6 -/
  | swgCode
  /-- 04 Table 04-6 -/
  | swgErr
  /-- 04 Table 04-6 -/
  | swgPruned
  /-- 04 Table 04-6 -/
  | swgSlot
  /-- 04 Table 04-6 -/
  | swgLine
  /-- 04 Table 04-6 -/
  | swgKnext
  /-- 04 Table 04-6 -/
  | seamPackAhead
  /-- 04 Table 04-6 -/
  | seamMatched
  /-- 04 Table 04-6 -/
  | seamSegments
  /-- 04 Table 04-6 -/
  | seamFill
  /-- 05 Table 05-7 -/
  | coreShape
  /-- 05 Table 05-7 -/
  | coreRun
  /-- 05 Table 05-7 -/
  | coreHalted
  /-- 05 Table 05-7 -/
  | corePc
  /-- 05 Table 05-7 -/
  | coreFrzFeed
  /-- 05 Table 05-7 -/
  | coreFrzPromo
  /-- 05 Table 05-7 -/
  | coreMmaCycles
  /-- 08 Table 08-12 -/
  | tstatusCode
  /-- 08 Table 08-12 -/
  | tstatusPc
  /-- 08 Table 08-12 -/
  | tstatusValid
  /-- 08 Table 08-12 -/
  | coreTc
  /-- 08 Table 08-12 -/
  | coreSreg
  /-- 09 Table 09-5 -/
  | coreQlast
  /-- 06 Table 06-10 -/
  | accLive
  /-- 06 Table 06-10 -/
  | accSwapPend
  /-- 06 Table 06-10 -/
  | accSwaps
  /-- 06 Table 06-10 -/
  | accHold
  /-- 07 Table 07-6 -/
  | spdPattern
  /-- 07 Table 07-6 -/
  | spdPairState
  /-- 07 Table 07-6 -/
  | spdBusy
  /-- 07 Table 07-6 -/
  | spdOffAcc
  /-- 07 Table 07-6 -/
  | spdCe
  /-- 07 Table 07-6 -/
  | spdUe
  /-- 07 Table 07-6 -/
  | spdScrubLate
  /-- 07 Table 07-6 -/
  | spdLogRow
  /-- 07 Table 07-6 -/
  | spdLogWord
  /-- 07 Table 07-6 -/
  | spdLogSyndrome
  /-- 07 Table 07-6 -/
  | spdLogKind
  /-- 07 Table 07-6 -/
  | spdLogValid
  /-- 07 Table 07-6 -/
  | spdCeCount
  /-- 07 Table 07-6 -/
  | spdScrubInterval
  /-- 09 Table 09-5 -/
  | qdEn
  /-- 09 Table 09-5 -/
  | qdBase
  /-- 09 Table 09-5 -/
  | qdCells
  /-- 09 Table 09-5 -/
  | qdGen
  /-- 09 Table 09-5 -/
  | qdLendEn
  /-- 09 Table 09-5 -/
  | qdLendCore
  /-- 09 Table 09-5 -/
  | qdLendQ
  /-- 09 Table 09-5 -/
  | qdLendMin
  /-- 09 Table 09-5 -/
  | qdFlight
  /-- 09 Table 09-5 -/
  | qdHead
  /-- 09 Table 09-5 -/
  | qdTail
  /-- 09 Table 09-5 -/
  | qdDepth
  /-- 09 Table 09-5 -/
  | qdDropped
  /-- 09 Table 09-5 -/
  | qsEn
  /-- 09 Table 09-5 -/
  | qsMode
  /-- 09 Table 09-5 -/
  | qsTchip
  /-- 09 Table 09-5 -/
  | qsTcore
  /-- 09 Table 09-5 -/
  | qsTq
  /-- 09 Table 09-5 -/
  | qsQuota
  /-- 09 Table 09-5 -/
  | qsCredits
  /-- 09 Table 09-5 -/
  | qsFlight
  /-- 09 Table 09-5 -/
  | qsTorn
  /-- 09 Table 09-5 -/
  | qgMember
  /-- 10 Table 10-10 -/
  | dmaBusy
  /-- 10 Table 10-10 -/
  | dmaCode
  /-- 10 Table 10-10 -/
  | dmaNum
  /-- 10 Table 10-10 -/
  | dmaBytes
  /-- 10 Table 10-10 -/
  | mcSpeed
  /-- 10 Table 10-10 -/
  | mcScrubH
  /-- 10 Table 10-10 -/
  | mcCe
  /-- 10 Table 10-10 -/
  | mcUe
  /-- 10 Table 10-10 -/
  | mcTrainFail
  /-- 10 Table 10-10 -/
  | mcHot
  /-- 10 Table 10-10 -/
  | mcCeCount
  /-- 10 Table 10-10 -/
  | mcLogAddr
  /-- 10 Table 10-10 -/
  | mcLogValid
  /-- 10 Table 10-10 -/
  | mcDirRetry
  /-- 10 Table 10-10 -/
  | mcDirHold
  /-- 10 Table 10-10 -/
  | moveSrc
  /-- 10 Table 10-10 -/
  | moveDst
  /-- 10 Table 10-10 -/
  | movePartition
  /-- 10 Table 10-10 -/
  | moveGo
  /-- 10 Table 10-10 -/
  | moveDone
  /-- 10 Table 10-10 -/
  | moveCode
  /-- 10 Table 10-10 -/
  | movePasses
  /-- 10 Table 10-10 -/
  | movePoisoned
  /-- 11 Table 11-3 -/
  | classMode
  /-- 11 Table 11-3 -/
  | classPrio
  /-- 11 Table 11-3 -/
  | classBudget
  /-- 11 Table 11-3 -/
  | classMidAt
  /-- 11 Table 11-3 -/
  | classHighAt
  /-- 11 Table 11-3 -/
  | classCritAt
  /-- 11 Table 11-3 -/
  | bwrOver
  /-- 11 Table 11-3 -/
  | bwrOvd
  /-- 11 Table 11-3 -/
  | bwrLogWrap
  /-- 11 Table 11-3 -/
  | bwrWindow
  /-- 11 Table 11-3 -/
  | ovdLogWindow
  /-- 11 Table 11-3 -/
  | ovdLogClass
  /-- 11 Table 11-3 -/
  | ovdLogPort
  /-- 11 Table 11-3 -/
  | ovdLogLines
  /-- 11 Table 11-3 -/
  | ovdLogValid
  /-- 11 Table 11-3 -/
  | ovdNext
  /-- 11 Table 11-3 -/
  | bwrHist
  /-- 12 Table 12-4 -/
  | slcPartBase
  /-- 12 Table 12-4 -/
  | slcPartSize
  /-- 12 Table 12-4 -/
  | slcPartEn
  /-- 12 Table 12-4 -/
  | slcPartFlight
  /-- 12 Table 12-4 -/
  | slcRefused
  /-- 12 Table 12-4 -/
  | slcOvf
  /-- 12 Table 12-4 -/
  | slcPoll
  /-- 12 Table 12-4 -/
  | slcTreeLost
  /-- 12 Table 12-4 -/
  | slcLastNum
  /-- 12 Table 12-4 -/
  | slcTreeChildren
  /-- 12 Table 12-4 -/
  | slcDrops
  /-- 12 Table 12-4 -/
  | slcWaiters
  /-- 12 Table 12-4 -/
  | sluiceCount
  /-- 12 Table 12-4 -/
  | sluiceCtrl
  /-- 13 Table 13-8 -/
  | linkHold
  /-- 13 Table 13-8 -/
  | linkRetrain
  /-- 13 Table 13-8 -/
  | linkNarrow
  /-- 13 Table 13-8 -/
  | linkUnquar
  /-- 13 Table 13-8 -/
  | linkState
  /-- 13 Table 13-8 -/
  | linkWidth
  /-- 13 Table 13-8 -/
  | linkPartner
  /-- 13 Table 13-8 -/
  | linkPartnerLink
  /-- 13 Table 13-8 -/
  | linkCableErr
  /-- 13 Table 13-8 -/
  | linkStall
  /-- 13 Table 13-8 -/
  | linkFecCorr
  /-- 13 Table 13-8 -/
  | linkFecUncorr
  /-- 13 Table 13-8 -/
  | linkCrcFail
  /-- 13 Table 13-8 -/
  | linkReplays
  /-- 13 Table 13-8 -/
  | linkRetrains
  /-- 13 Table 13-8 -/
  | linkViolRecent
  /-- 13 Table 13-8 -/
  | linkViolLast
  /-- 13 Table 13-8 -/
  | linkViolTotal
  /-- 13 Table 13-8 -/
  | linkQuar
  /-- 13 Table 13-8 -/
  | klkReach
  /-- 13 Table 13-8 -/
  | nackLogLink
  /-- 13 Table 13-8 -/
  | nackLogReason
  /-- 13 Table 13-8 -/
  | nackLogSeq
  /-- 13 Table 13-8 -/
  | nackLogSlot
  /-- 13 Table 13-8 -/
  | nackLogPartner
  /-- 13 Table 13-8 -/
  | nackLogEpoch
  /-- 13 Table 13-8 -/
  | nackLogValid
  /-- 13 Table 13-8 -/
  | nackNext
  /-- 14 Table 14-6 -/
  | towRingEn
  /-- 14 Table 14-6 -/
  | towRingSizeLog2
  /-- 14 Table 14-6 -/
  | towRingDoorbell
  /-- 14 Table 14-6 -/
  | towRingBase
  /-- 14 Table 14-6 -/
  | towRingTaken
  /-- 14 Table 14-6 -/
  | towErr
  /-- 14 Table 14-6 -/
  | towPart
  /-- 14 Table 14-6 -/
  | towCode
  /-- 14 Table 14-6 -/
  | towMissed
  /-- 14 Table 14-6 -/
  | towJobs
  /-- 15 Table 15-11 -/
  | cmdSqLoc
  /-- 15 Table 15-11 -/
  | cmdSqBase
  /-- 15 Table 15-11 -/
  | cmdSqSizeLog2
  /-- 15 Table 15-11 -/
  | cmdSqEn
  /-- 15 Table 15-11 -/
  | cmdSqCq
  /-- 15 Table 15-11 -/
  | cmdSqTail
  /-- 15 Table 15-11 -/
  | cmdSqHead
  /-- 15 Table 15-11 -/
  | cmdCqLoc
  /-- 15 Table 15-11 -/
  | cmdCqBase
  /-- 15 Table 15-11 -/
  | cmdCqSizeLog2
  /-- 15 Table 15-11 -/
  | cmdCqEn
  /-- 15 Table 15-11 -/
  | cmdCqVector
  /-- 15 Table 15-11 -/
  | cmdCqCoalN
  /-- 15 Table 15-11 -/
  | cmdCqCoalUs
  /-- 15 Table 15-11 -/
  | cmdCqHead
  /-- 15 Table 15-11 -/
  | cmdCqTail
  /-- 15 Table 15-11 -/
  | cmdCqPhase
  /-- 15 Table 15-11 -/
  | fnCqFull
  /-- 15 Table 15-11 -/
  | fnCqStall
  /-- 15 Table 15-11 -/
  | fnFetchErr
  /-- 15 Table 15-11 -/
  | fnPartState
  /-- 15 Table 15-11 -/
  | cmdAperture
  /-- 15 Table 15-11 -/
  | hqsEn
  /-- 15 Table 15-11 -/
  | hqsMode
  /-- 15 Table 15-11 -/
  | hqsTchip
  /-- 15 Table 15-11 -/
  | hqsTcore
  /-- 15 Table 15-11 -/
  | hqsTq
  /-- 15 Table 15-11 -/
  | hqsQuota
  /-- 15 Table 15-11 -/
  | hqsCredits
  /-- 15 Table 15-11 -/
  | hqsFlight
  /-- 15 Table 15-11 -/
  | hqsTorn
  /-- 19 Table 19-7 -/
  | notifySluice
  /-- 19 Table 19-7 -/
  | notifyPending
  /-- 19 Table 19-7 -/
  | notifyVec
  /-- 19 Table 19-7 -/
  | notifyCount
  /-- 15 Table 15-12 -/
  | partState
  /-- 15 Table 15-12 -/
  | partQuads
  /-- 15 Table 15-12 -/
  | partFcap
  /-- 15 Table 15-12 -/
  | winV
  /-- 15 Table 15-12 -/
  | winBase
  /-- 15 Table 15-12 -/
  | winPages
  /-- 15 Table 15-12 -/
  | partXlateEn
  /-- 15 Table 15-12 -/
  | partXlateBase
  /-- 15 Table 15-12 -/
  | partLinkqReq
  /-- 15 Table 15-12 -/
  | partLinkqSluice
  /-- 15 Table 15-12 -/
  | partLinkqLedger
  /-- 15 Table 15-12 -/
  | partLinkqStream
  /-- 15 Table 15-12 -/
  | partXlate
  /-- 15 Table 15-12 -/
  | partAbsorbed
  /-- 15 Table 15-12 -/
  | partDownNack
  /-- 16 Table 16-6 -/
  | kprStep
  /-- 16 Table 16-6 -/
  | kprReady
  /-- 16 Table 16-6 -/
  | kprImage
  /-- 16 Table 16-6 -/
  | kprAuthFail
  /-- 16 Table 16-6 -/
  | kprFuseFail
  /-- 16 Table 16-6 -/
  | kprSvn
  /-- 16 Table 16-6 -/
  | kprZero1Done
  /-- 16 Table 16-6 -/
  | kprZero2Done
  /-- 16 Table 16-6 -/
  | kprResetKind
  /-- 16 Table 16-6 -/
  | kprResetPart
  /-- 16 Table 16-6 -/
  | kprKeepMem
  /-- 16 Table 16-6 -/
  | kprResetGo
  /-- 16 Table 16-6 -/
  | kprResetMask
  /-- 16 Table 16-6 -/
  | kprMemzeroGo
  /-- 16 Table 16-6 -/
  | kprPstateReq
  /-- 16 Table 16-6 -/
  | kprPstateState
  /-- 16 Table 16-6 -/
  | kprOffReady
  /-- 16 Table 16-6 -/
  | kprRefused
  /-- 16 Table 16-6 -/
  | kprCommitGo
  /-- 16 Table 16-6 -/
  | kprCommitMerged
  /-- 16 Table 16-6 -/
  | kprCommitPending
  /-- 16 Table 16-6 -/
  | kprCommitEpoch
  /-- 17 Table 17-9 -/
  | kprErrHead
  /-- 17 Table 17-9 -/
  | kprErrCount
  /-- 17 Table 17-9 -/
  | kprErrDrop
  /-- 17 Table 17-9 -/
  | kprErrVector
  /-- 17 Table 17-9 -/
  | kprErrClassMask
  /-- 17 Table 17-9 -/
  | kprUeFence
  /-- 17 Table 17-9 -/
  | kprCeFence
  /-- 17 Table 17-9 -/
  | kprFenced
  /-- 17 Table 17-9 -/
  | dbgEn
  /-- 17 Table 17-9 -/
  | dbgHalt
  /-- 17 Table 17-9 -/
  | dbgStep
  /-- 17 Table 17-9 -/
  | dbgResume
  /-- 17 Table 17-9 -/
  | dbgWrap
  /-- 17 Table 17-9 -/
  | dbgFilter
  /-- 17 Table 17-9 -/
  | dbgHalted
  /-- 17 Table 17-9 -/
  | dbgFull
  /-- 17 Table 17-9 -/
  | dbgCapErr
  /-- 17 Table 17-9 -/
  | dbgTraceNext
  /-- 17 Table 17-9 -/
  | dbgTrigKind
  /-- 17 Table 17-9 -/
  | dbgTrigAction
  /-- 17 Table 17-9 -/
  | dbgTrigSet
  /-- 17 Table 17-9 -/
  | dbgTrigCmask
  /-- 17 Table 17-9 -/
  | dbgTrigValue
  /-- 17 Table 17-9 -/
  | dbgCapAddr
  /-- 17 Table 17-9 -/
  | dbgPmcSel
  /-- 17 Table 17-9 -/
  | dbgPmc
  /-- 19 Table 19-6 -/
  | kprPciVendor
  /-- 19 Table 19-6 -/
  | kprPciDevice
  /-- 19 Table 19-6 -/
  | kprStepMajor
  /-- 19 Table 19-6 -/
  | kprStepMinor
  /-- 19 Table 19-6 -/
  | kprForm
  /-- 19 Table 19-6 -/
  | kprSerial
  /-- 19 Table 19-6 -/
  | kprFwBuild
  /-- 19 Table 19-6 -/
  | kprFwMinor
  /-- 19 Table 19-6 -/
  | kprFwMajor
  /-- 19 Table 19-6 -/
  | kprImageSvn
  /-- 19 Table 19-6 -/
  | kprCapsCores
  /-- 19 Table 19-6 -/
  | kprCapsHbmGib
  /-- 19 Table 19-6 -/
  | kprCapsDdrCh
  /-- 19 Table 19-6 -/
  | kprCapsLinks
  /-- 19 Table 19-6 -/
  | kprIntStatus
  /-- 19 Table 19-6 -/
  | kprIntEn
  /-- 19 Table 19-6 -/
  | kprIntVec
  /-- 19 Table 19-6 -/
  | kprGstatus
  /-- 19 Table 19-6 -/
  | kprGlogNext
  /-- 19 Table 19-6 -/
  | kprGlogEvent
  /-- 19 Table 19-6 -/
  | kprGlogBlock
  /-- 19 Table 19-6 -/
  | kprGlogInstance
  /-- 19 Table 19-6 -/
  | kprGlogOffset
  /-- 19 Table 19-6 -/
  | kprGlogSource
  /-- 19 Table 19-6 -/
  | kprGlogEpoch
  /-- 19 Table 19-6 -/
  | kprGlogValid
  /-- 19 Table 19-6 -/
  | kprTelemLoc
  /-- 19 Table 19-6 -/
  | kprTelemBase
  /-- 19 Table 19-6 -/
  | kprTelemSizeLog2
  /-- 19 Table 19-6 -/
  | kprTelemEn
  /-- 19 Table 19-6 -/
  | kprTelemTail
  /-- 19 Table 19-6 -/
  | kprTelemLost
  /-- 19 Table 19-6 -/
  | kprExpertLock
  /-- 19 Table 19-6 -/
  | kprKeyHash
  /-- 19 Table 19-6 -/
  | kprFuseSvn
  /-- 19 Table 19-6 -/
  | kprBallastMax
  /-- 19 Table 19-6 -/
  | kprLevelFreq
  /-- 19 Table 19-6 -/
  | kprLevelDraw
  /-- 20 Table 20-16 -/
  | kbChipNum
  /-- 20 Table 20-16 -/
  | kbCoreNum
  /-- 20 Table 20-16 -/
  | kbPart
  /-- 20 Table 20-16 -/
  | kbSlcBase
  /-- 20 Table 20-16 -/
  | kbSlcSize
  /-- 20 Table 20-16 -/
  | kbIsland
  /-- 20 Table 20-16 -/
  | kbProtoFault
  /-- 20 Table 20-16 -/
  | kbPort
  /-- 20 Table 20-16 -/
  | kbEpochLost
deriving DecidableEq, Repr

/-- Cleared by P and C. -/
def clrPC : Clears := ⟨true, true, false, false, false⟩
/-- Cleared by P, C, T and K. -/
def clrPCTK : Clears := ⟨true, true, true, true, false⟩
/-- Cleared by P, C and L. -/
def clrPCL : Clears := ⟨true, true, false, false, true⟩
/-- Cleared by P, C and T. -/
def clrPCT : Clears := ⟨true, true, true, false, false⟩
/-- Cleared by P only. -/
def clrP : Clears := ⟨true, false, false, false, false⟩
/-- Cleared by no reset. -/
def clrNone : Clears := ⟨false, false, false, false, false⟩

/-- The table row of each field. -/
def Fld.spec : Fld → FieldSpec
  | .klkChipNum => ⟨.klk, 0x0, 8, 1, 0, 8, .rw, (.val 0), clrPC⟩
  | .klkTrayLog2 => ⟨.klk, 0x0, 8, 1, 8, 3, .rw, (.val 0), clrPC⟩
  | .klkStrapSlot => ⟨.klk, 0x0, 8, 1, 16, 3, .ro, (.val 0), clrNone⟩
  | .klkLocked => ⟨.klk, 0x0, 8, 1, 24, 1, .w1s, (.val 0), clrPC⟩
  | .rsvPeakW => ⟨.rsv, 0x0, 8, 1, 0, 11, .rw, .fuse, clrPC⟩
  | .rsvSustainW => ⟨.rsv, 0x0, 8, 1, 16, 11, .rw, .fuse, clrPC⟩
  | .rsvDepth => ⟨.rsv, 0x8, 8, 1, 0, 16, .rw, .fuse, clrPC⟩
  | .rsvAccount => ⟨.rsv, 0x8, 8, 1, 16, 16, .ro, .fuse, clrPC⟩
  | .rsvPStaticMw => ⟨.rsv, 0x10, 8, 1, 0, 18, .rw, .fuse, clrPC⟩
  | .rsvVddMv => ⟨.rsv, 0x10, 8, 1, 18, 10, .ro, .fuse, clrPC⟩
  | .rsvShareWeight => ⟨.rsv, 0x40, 4, 16, 0, 8, .rw, (.val 0), clrPCT⟩
  | .rsvLossCode => ⟨.rsv, 0x80, 8, 1, 0, 4, .ro, (.val 0), clrPC⟩
  | .rsvLossPartition => ⟨.rsv, 0x80, 8, 1, 4, 4, .ro, (.val 0), clrPC⟩
  | .rsvLossPartValid => ⟨.rsv, 0x80, 8, 1, 8, 1, .ro, (.val 0), clrPC⟩
  | .rsvLossCount => ⟨.rsv, 0x80, 8, 1, 16, 16, .rc, (.val 0), clrPC⟩
  | .weirUpWMs => ⟨.weir, 0x0, 8, 1, 0, 10, .rw, .fuse, clrPC⟩
  | .weirDownWMs => ⟨.weir, 0x0, 8, 1, 16, 10, .rw, .fuse, clrPC⟩
  | .weirMinW => ⟨.weir, 0x10, 8, 1, 0, 11, .rw, (.val 0), clrPC⟩
  | .weirThrottleC => ⟨.weir, 0x10, 8, 1, 11, 7, .rw, (.val 95), clrPC⟩
  | .weirPaceSrc => ⟨.weir, 0x18, 8, 1, 0, 2, .rw, (.val 0), clrPC⟩
  | .weirMaster => ⟨.weir, 0x18, 8, 1, 2, 1, .rw, (.val 0), clrPC⟩
  | .weirFreeW => ⟨.weir, 0x18, 8, 1, 3, 5, .rw, (.val 10), clrPC⟩
  | .weirOffset => ⟨.weir, 0x18, 8, 1, 8, 8, .rw, (.val 0), clrPC⟩
  | .weirStride => ⟨.weir, 0x18, 8, 1, 16, 8, .rw, (.val 1), clrPC⟩
  | .weirSlotNow => ⟨.weir, 0x18, 8, 1, 24, 8, .ro, (.val 0), clrNone⟩
  | .weirFuseUpMin => ⟨.weir, 0x8, 8, 1, 0, 10, .ro, .fuse, clrPC⟩
  | .weirFuseUpMax => ⟨.weir, 0x8, 8, 1, 10, 10, .ro, .fuse, clrPC⟩
  | .weirFuseDownMin => ⟨.weir, 0x8, 8, 1, 20, 10, .ro, .fuse, clrPC⟩
  | .weirFuseDownMax => ⟨.weir, 0x8, 8, 1, 30, 10, .ro, .fuse, clrPC⟩
  | .weirFusePeakMaxW => ⟨.weir, 0x8, 8, 1, 40, 11, .ro, .fuse, clrPC⟩
  | .weirFuseDepthMax => ⟨.weir, 0x8, 8, 1, 51, 9, .ro, .fuse, clrPC⟩
  | .weirFusePaceLock => ⟨.weir, 0x8, 8, 1, 60, 1, .ro, .fuse, clrPC⟩
  | .weirClamped => ⟨.weir, 0x20, 8, 1, 0, 1, .w1c, (.val 0), clrPC⟩
  | .weirShortfall => ⟨.weir, 0x20, 8, 1, 1, 1, .w1c, (.val 0), clrPC⟩
  | .weirBreach => ⟨.weir, 0x20, 8, 1, 2, 1, .w1c, (.val 0), clrP⟩
  | .weirPaceLost => ⟨.weir, 0x20, 8, 1, 3, 1, .w1c, (.val 0), clrPC⟩
  | .weirPolicyLoss => ⟨.weir, 0x20, 8, 1, 4, 1, .w1c, (.val 0), clrPC⟩
  | .weirRampOpen => ⟨.weir, 0x20, 8, 1, 5, 1, .ro, (.val 0), clrPC⟩
  | .weirFloor => ⟨.weir, 0x20, 8, 1, 6, 1, .ro, (.val 0), clrPC⟩
  | .weirSrcInUse => ⟨.weir, 0x20, 8, 1, 7, 2, .ro, (.val 0), clrPC⟩
  | .weirMultiMaster => ⟨.weir, 0x20, 8, 1, 9, 1, .w1c, (.val 0), clrPC⟩
  | .numInv => ⟨.acc, 0x100, 8, 1, 0, 1, .w1c, (.val 0), clrPCTK⟩
  | .numNanin => ⟨.acc, 0x100, 8, 1, 1, 1, .w1c, (.val 0), clrPCTK⟩
  | .numBlknan => ⟨.acc, 0x100, 8, 1, 2, 1, .w1c, (.val 0), clrPCTK⟩
  | .numOvf => ⟨.acc, 0x100, 8, 1, 3, 1, .w1c, (.val 0), clrPCTK⟩
  | .numSatd => ⟨.acc, 0x100, 8, 1, 4, 1, .w1c, (.val 0), clrPCTK⟩
  | .numUnf => ⟨.acc, 0x100, 8, 1, 5, 1, .w1c, (.val 0), clrPCTK⟩
  | .numIflush => ⟨.acc, 0x100, 8, 1, 6, 1, .w1c, (.val 0), clrPCTK⟩
  | .numIwrap => ⟨.acc, 0x100, 8, 1, 7, 1, .w1c, (.val 0), clrPCTK⟩
  | .swgCode => ⟨.swg, 0x400, 8, 1, 0, 8, .ro, (.val 0), clrPCTK⟩
  | .swgErr => ⟨.swg, 0x400, 8, 1, 8, 1, .w1c, (.val 0), clrPCTK⟩
  | .swgPruned => ⟨.swg, 0x400, 8, 1, 9, 1, .w1c, (.val 0), clrPCTK⟩
  | .swgSlot => ⟨.swg, 0x400, 8, 1, 16, 4, .ro, (.val 0), clrPCTK⟩
  | .swgLine => ⟨.swg, 0x400, 8, 1, 32, 24, .ro, (.val 0), clrPCTK⟩
  | .swgKnext => ⟨.swg, 0x408, 8, 1, 0, 32, .ro, (.val 0), clrPCTK⟩
  | .seamPackAhead => ⟨.seam, 0x0, 8, 1, 0, 4, .rw, (.val 8), clrPCTK⟩
  | .seamMatched => ⟨.seam, 0x10, 8, 1, 0, 48, .ro, (.val 0), clrPCTK⟩
  | .seamSegments => ⟨.seam, 0x18, 8, 1, 0, 48, .ro, (.val 0), clrPCTK⟩
  | .seamFill => ⟨.seam, 0x20, 8, 1, 0, 48, .ro, (.val 0), clrPCTK⟩
  | .coreShape => ⟨.core, 0x0, 8, 1, 0, 2, .ro, (.val 0), clrPCTK⟩
  | .coreRun => ⟨.core, 0x0, 8, 1, 2, 1, .ro, (.val 0), clrPCTK⟩
  | .coreHalted => ⟨.core, 0x0, 8, 1, 3, 1, .ro, (.val 0), clrPCTK⟩
  | .corePc => ⟨.core, 0x0, 8, 1, 16, 12, .ro, (.val 0), clrPCTK⟩
  | .coreFrzFeed => ⟨.core, 0x8, 8, 1, 0, 48, .ro, (.val 0), clrPCTK⟩
  | .coreFrzPromo => ⟨.core, 0x10, 8, 1, 0, 48, .ro, (.val 0), clrPCTK⟩
  | .coreMmaCycles => ⟨.core, 0x18, 8, 1, 0, 48, .ro, (.val 0), clrPCTK⟩
  | .tstatusCode => ⟨.core, 0x20, 8, 1, 0, 8, .ro, (.val 0), clrPCTK⟩
  | .tstatusPc => ⟨.core, 0x20, 8, 1, 8, 12, .ro, (.val 0), clrPCTK⟩
  | .tstatusValid => ⟨.core, 0x20, 8, 1, 20, 1, .ro, (.val 0), clrPCTK⟩
  | .coreTc => ⟨.core, 0x200, 8, 3, 0, 64, .ro, .byIndex, clrPCTK⟩
  | .coreSreg => ⟨.core, 0x100, 8, 32, 0, 64, .ro, (.val 0), clrPCTK⟩
  | .coreQlast => ⟨.core, 0x700, 8, 1, 0, 64, .ro, (.val 0), clrPCTK⟩
  | .accLive => ⟨.acc, 0x0, 8, 1, 0, 1, .ro, (.val 0), clrPCTK⟩
  | .accSwapPend => ⟨.acc, 0x0, 8, 1, 1, 1, .ro, (.val 0), clrPCTK⟩
  | .accSwaps => ⟨.acc, 0x8, 8, 1, 0, 48, .ro, (.val 0), clrPCTK⟩
  | .accHold => ⟨.acc, 0x10, 8, 1, 0, 48, .ro, (.val 0), clrPCTK⟩
  | .spdPattern => ⟨.spd, 0x0, 8, 1, 0, 2, .rw, (.val 0), clrPCT⟩
  | .spdPairState => ⟨.spd, 0x8, 8, 1, 0, 16, .rw, (.val 65535), clrPCT⟩
  | .spdBusy => ⟨.spd, 0x8, 8, 1, 16, 8, .ro, (.val 0), clrPCT⟩
  | .spdOffAcc => ⟨.spd, 0x10, 8, 1, 0, 1, .w1c, (.val 0), clrPCTK⟩
  | .spdCe => ⟨.spd, 0x10, 8, 1, 1, 1, .w1c, (.val 0), clrPCTK⟩
  | .spdUe => ⟨.spd, 0x10, 8, 1, 2, 1, .w1c, (.val 0), clrPCTK⟩
  | .spdScrubLate => ⟨.spd, 0x10, 8, 1, 3, 1, .w1c, (.val 0), clrPCTK⟩
  | .spdLogRow => ⟨.spd, 0x18, 8, 1, 0, 11, .ro, (.val 0), clrPCTK⟩
  | .spdLogWord => ⟨.spd, 0x18, 8, 1, 11, 6, .ro, (.val 0), clrPCTK⟩
  | .spdLogSyndrome => ⟨.spd, 0x18, 8, 1, 17, 8, .ro, (.val 0), clrPCTK⟩
  | .spdLogKind => ⟨.spd, 0x18, 8, 1, 25, 1, .ro, (.val 0), clrPCTK⟩
  | .spdLogValid => ⟨.spd, 0x18, 8, 1, 26, 1, .w1c, (.val 0), clrPCTK⟩
  | .spdCeCount => ⟨.spd, 0x20, 8, 1, 0, 16, .rc, (.val 0), clrPCTK⟩
  | .spdScrubInterval => ⟨.spd, 0x28, 8, 1, 0, 8, .rw, (.val 64), clrPCT⟩
  | .qdEn => ⟨.core, 0x400, 16, 16, 0, 1, .rw, (.val 0), clrPCTK⟩
  | .qdBase => ⟨.core, 0x400, 16, 16, 1, 14, .rw, (.val 0), clrPCTK⟩
  | .qdCells => ⟨.core, 0x400, 16, 16, 15, 13, .rw, (.val 0), clrPCTK⟩
  | .qdGen => ⟨.core, 0x400, 16, 16, 28, 7, .ro, (.val 0), clrPCTK⟩
  | .qdLendEn => ⟨.core, 0x400, 16, 16, 35, 1, .rw, (.val 0), clrPCTK⟩
  | .qdLendCore => ⟨.core, 0x400, 16, 16, 36, 7, .rw, (.val 0), clrPCTK⟩
  | .qdLendQ => ⟨.core, 0x400, 16, 16, 43, 4, .rw, (.val 0), clrPCTK⟩
  | .qdLendMin => ⟨.core, 0x400, 16, 16, 47, 13, .rw, (.val 0), clrPCTK⟩
  | .qdFlight => ⟨.core, 0x408, 16, 16, 0, 16, .rw, (.val 0), clrPCTK⟩
  | .qdHead => ⟨.core, 0x408, 16, 16, 16, 12, .ro, (.val 0), clrPCTK⟩
  | .qdTail => ⟨.core, 0x408, 16, 16, 28, 12, .ro, (.val 0), clrPCTK⟩
  | .qdDepth => ⟨.core, 0x408, 16, 16, 40, 13, .ro, (.val 0), clrPCTK⟩
  | .qdDropped => ⟨.core, 0x408, 16, 16, 53, 11, .rc, (.val 0), clrPCTK⟩
  | .qsEn => ⟨.core, 0x500, 16, 16, 0, 1, .rw, (.val 0), clrPCTK⟩
  | .qsMode => ⟨.core, 0x500, 16, 16, 1, 1, .rw, (.val 0), clrPCTK⟩
  | .qsTchip => ⟨.core, 0x500, 16, 16, 2, 8, .rw, (.val 0), clrPCTK⟩
  | .qsTcore => ⟨.core, 0x500, 16, 16, 10, 7, .rw, (.val 0), clrPCTK⟩
  | .qsTq => ⟨.core, 0x500, 16, 16, 17, 4, .rw, (.val 0), clrPCTK⟩
  | .qsQuota => ⟨.core, 0x500, 16, 16, 21, 13, .rw, (.val 0), clrPCTK⟩
  | .qsCredits => ⟨.core, 0x500, 16, 16, 34, 13, .ro, (.val 0), clrPCTK⟩
  | .qsFlight => ⟨.core, 0x500, 16, 16, 48, 16, .rw, (.val 0), clrPCTK⟩
  | .qsTorn => ⟨.core, 0x508, 16, 16, 0, 16, .rc, (.val 0), clrPCTK⟩
  | .qgMember => ⟨.core, 0x600, 4, 32, 0, 23, .rw, (.val 0), clrPCTK⟩
  | .dmaBusy => ⟨.dma, 0x0, 8, 2, 0, 1, .ro, (.val 0), clrPCTK⟩
  | .dmaCode => ⟨.dma, 0x0, 8, 2, 8, 8, .ro, (.val 0), clrPCTK⟩
  | .dmaNum => ⟨.dma, 0x0, 8, 2, 16, 4, .w1c, (.val 0), clrPCTK⟩
  | .dmaBytes => ⟨.dma, 0x10, 8, 2, 0, 48, .ro, (.val 0), clrPCTK⟩
  | .mcSpeed => ⟨.mc, 0x0, 8, 1, 0, 2, .ro, (.val 0), clrPC⟩
  | .mcScrubH => ⟨.mc, 0x0, 8, 1, 8, 8, .rw, (.val 24), clrPC⟩
  | .mcCe => ⟨.mc, 0x8, 8, 1, 0, 1, .w1c, (.val 0), clrPC⟩
  | .mcUe => ⟨.mc, 0x8, 8, 1, 1, 1, .w1c, (.val 0), clrPC⟩
  | .mcTrainFail => ⟨.mc, 0x8, 8, 1, 2, 1, .ro, (.val 0), clrPC⟩
  | .mcHot => ⟨.mc, 0x8, 8, 1, 3, 1, .ro, (.val 0), clrPC⟩
  | .mcCeCount => ⟨.mc, 0x10, 8, 1, 0, 32, .rc, (.val 0), clrPC⟩
  | .mcLogAddr => ⟨.mc, 0x18, 8, 1, 0, 40, .ro, (.val 0), clrPC⟩
  | .mcLogValid => ⟨.mc, 0x18, 8, 1, 40, 1, .w1c, (.val 0), clrPC⟩
  | .mcDirRetry => ⟨.mc, 0x20, 8, 1, 0, 32, .rc, (.val 0), clrPC⟩
  | .mcDirHold => ⟨.mc, 0x28, 8, 1, 0, 32, .rc, (.val 0), clrPC⟩
  | .moveSrc => ⟨.mcMove, 0x0, 32, 2, 0, 40, .rw, (.val 0), clrPC⟩
  | .moveDst => ⟨.mcMove, 0x8, 32, 2, 0, 40, .rw, (.val 0), clrPC⟩
  | .movePartition => ⟨.mcMove, 0x10, 32, 2, 0, 4, .rw, (.val 0), clrPC⟩
  | .moveGo => ⟨.mcMove, 0x10, 32, 2, 8, 1, .w1s, (.val 0), clrPC⟩
  | .moveDone => ⟨.mcMove, 0x18, 32, 2, 0, 1, .w1c, (.val 0), clrPC⟩
  | .moveCode => ⟨.mcMove, 0x18, 32, 2, 8, 8, .ro, (.val 0), clrPC⟩
  | .movePasses => ⟨.mcMove, 0x18, 32, 2, 16, 3, .ro, (.val 0), clrPC⟩
  | .movePoisoned => ⟨.mcMove, 0x18, 32, 2, 19, 13, .ro, (.val 0), clrPC⟩
  | .classMode => ⟨.bwr, 0x0, 16, 8, 0, 1, .rw, (.val 0), clrPC⟩
  | .classPrio => ⟨.bwr, 0x0, 16, 8, 1, 3, .rw, .byIndex, clrPC⟩
  | .classBudget => ⟨.bwr, 0x0, 16, 8, 4, 20, .rw, (.val 0), clrPC⟩
  | .classMidAt => ⟨.bwr, 0x0, 16, 8, 24, 4, .rw, .byIndex, clrPC⟩
  | .classHighAt => ⟨.bwr, 0x0, 16, 8, 28, 4, .rw, .byIndex, clrPC⟩
  | .classCritAt => ⟨.bwr, 0x0, 16, 8, 32, 4, .rw, .byIndex, clrPC⟩
  | .bwrOver => ⟨.bwr, 0x200, 8, 1, 0, 8, .w1c, (.val 0), clrPC⟩
  | .bwrOvd => ⟨.bwr, 0x200, 8, 1, 8, 8, .w1c, (.val 0), clrPC⟩
  | .bwrLogWrap => ⟨.bwr, 0x200, 8, 1, 16, 1, .w1c, (.val 0), clrPC⟩
  | .bwrWindow => ⟨.bwr, 0x208, 8, 1, 0, 32, .ro, (.val 0), clrPC⟩
  | .ovdLogWindow => ⟨.bwr, 0x300, 8, 16, 0, 32, .ro, (.val 0), clrPC⟩
  | .ovdLogClass => ⟨.bwr, 0x300, 8, 16, 32, 3, .ro, (.val 0), clrPC⟩
  | .ovdLogPort => ⟨.bwr, 0x300, 8, 16, 35, 8, .ro, (.val 0), clrPC⟩
  | .ovdLogLines => ⟨.bwr, 0x300, 8, 16, 43, 20, .ro, (.val 0), clrPC⟩
  | .ovdLogValid => ⟨.bwr, 0x300, 8, 16, 63, 1, .w1c, (.val 0), clrPC⟩
  | .ovdNext => ⟨.bwr, 0x380, 8, 1, 0, 4, .ro, (.val 0), clrPC⟩
  | .bwrHist => ⟨.bwr, 0x400, 4, 512, 0, 32, .ro, (.val 0), clrPC⟩
  | .slcPartBase => ⟨.slc, 0x20000, 8, 16, 0, 14, .rw, (.val 0), clrPC⟩
  | .slcPartSize => ⟨.slc, 0x20000, 8, 16, 14, 15, .rw, (.val 0), clrPC⟩
  | .slcPartEn => ⟨.slc, 0x20000, 8, 16, 29, 1, .rw, (.val 0), clrPCT⟩
  | .slcPartFlight => ⟨.slc, 0x20000, 8, 16, 32, 16, .rw, (.val 0), clrPCT⟩
  | .slcRefused => ⟨.slc, 0x20100, 8, 1, 0, 1, .w1c, (.val 0), clrPC⟩
  | .slcOvf => ⟨.slc, 0x20100, 8, 1, 1, 1, .w1c, (.val 0), clrPC⟩
  | .slcPoll => ⟨.slc, 0x20100, 8, 1, 2, 1, .w1c, (.val 0), clrPC⟩
  | .slcTreeLost => ⟨.slc, 0x20100, 8, 1, 3, 1, .w1c, (.val 0), clrPC⟩
  | .slcLastNum => ⟨.slc, 0x20100, 8, 1, 16, 16, .ro, (.val 0), clrPC⟩
  | .slcTreeChildren => ⟨.slc, 0x20108, 8, 1, 0, 24, .ro, .fuse, clrPC⟩
  | .slcDrops => ⟨.slc, 0x20110, 8, 1, 0, 32, .rc, (.val 0), clrPC⟩
  | .slcWaiters => ⟨.slc, 0x20118, 8, 1, 0, 15, .ro, (.val 0), clrPC⟩
  | .sluiceCount => ⟨.slc, 0x0, 8, 16384, 0, 48, .rw, (.val 0), clrPCT⟩
  | .sluiceCtrl => ⟨.slc, 0x0, 8, 16384, 48, 16, .rw, (.val 0), clrPCT⟩
  | .linkHold => ⟨.klk, 0x1000, 256, 24, 0, 1, .rw, (.val 0), clrPC⟩
  | .linkRetrain => ⟨.klk, 0x1000, 256, 24, 1, 1, .wo, (.val 0), clrNone⟩
  | .linkNarrow => ⟨.klk, 0x1000, 256, 24, 2, 1, .rw, (.val 0), clrPC⟩
  | .linkUnquar => ⟨.klk, 0x1000, 256, 24, 3, 1, .wo, (.val 0), clrNone⟩
  | .linkState => ⟨.klk, 0x1008, 256, 24, 0, 3, .ro, (.val 0), clrPCL⟩
  | .linkWidth => ⟨.klk, 0x1008, 256, 24, 3, 1, .ro, (.val 0), clrPCL⟩
  | .linkPartner => ⟨.klk, 0x1008, 256, 24, 4, 8, .ro, (.val 0), clrPCL⟩
  | .linkPartnerLink => ⟨.klk, 0x1008, 256, 24, 12, 5, .ro, (.val 0), clrPCL⟩
  | .linkCableErr => ⟨.klk, 0x1008, 256, 24, 17, 1, .w1c, (.val 0), clrPCL⟩
  | .linkStall => ⟨.klk, 0x1008, 256, 24, 18, 1, .w1c, (.val 0), clrPCL⟩
  | .linkFecCorr => ⟨.klk, 0x1010, 256, 24, 0, 32, .rc, (.val 0), clrPCL⟩
  | .linkFecUncorr => ⟨.klk, 0x1018, 256, 24, 0, 32, .rc, (.val 0), clrPCL⟩
  | .linkCrcFail => ⟨.klk, 0x1020, 256, 24, 0, 32, .rc, (.val 0), clrPCL⟩
  | .linkReplays => ⟨.klk, 0x1028, 256, 24, 0, 32, .rc, (.val 0), clrPCL⟩
  | .linkRetrains => ⟨.klk, 0x1030, 256, 24, 0, 16, .rc, (.val 0), clrPCL⟩
  | .linkViolRecent => ⟨.klk, 0x1038, 256, 24, 0, 8, .ro, (.val 0), clrPCL⟩
  | .linkViolLast => ⟨.klk, 0x1038, 256, 24, 8, 8, .ro, (.val 0), clrPCL⟩
  | .linkViolTotal => ⟨.klk, 0x1038, 256, 24, 16, 32, .rc, (.val 0), clrPCL⟩
  | .linkQuar => ⟨.klk, 0x1038, 256, 24, 48, 1, .w1c, (.val 0), clrPCL⟩
  | .klkReach => ⟨.klk, 0x100, 8, 4, 0, 64, .rw, (.val 18446744073709551615), clrPC⟩
  | .nackLogLink => ⟨.klk, 0x200, 8, 16, 0, 5, .ro, (.val 0), clrPC⟩
  | .nackLogReason => ⟨.klk, 0x200, 8, 16, 5, 8, .ro, (.val 0), clrPC⟩
  | .nackLogSeq => ⟨.klk, 0x200, 8, 16, 13, 12, .ro, (.val 0), clrPC⟩
  | .nackLogSlot => ⟨.klk, 0x200, 8, 16, 25, 4, .ro, (.val 0), clrPC⟩
  | .nackLogPartner => ⟨.klk, 0x200, 8, 16, 29, 8, .ro, (.val 0), clrPC⟩
  | .nackLogEpoch => ⟨.klk, 0x200, 8, 16, 37, 26, .ro, (.val 0), clrPC⟩
  | .nackLogValid => ⟨.klk, 0x200, 8, 16, 63, 1, .w1c, (.val 0), clrPC⟩
  | .nackNext => ⟨.klk, 0x280, 8, 1, 0, 4, .ro, (.val 0), clrPC⟩
  | .towRingEn => ⟨.tow, 0x0, 32, 16, 0, 1, .rw, (.val 0), clrPCT⟩
  | .towRingSizeLog2 => ⟨.tow, 0x0, 32, 16, 1, 4, .rw, (.val 0), clrPCT⟩
  | .towRingDoorbell => ⟨.tow, 0x0, 32, 16, 5, 14, .rw, (.val 0), clrPCT⟩
  | .towRingBase => ⟨.tow, 0x8, 32, 16, 0, 40, .rw, (.val 0), clrPCT⟩
  | .towRingTaken => ⟨.tow, 0x10, 32, 16, 0, 64, .ro, (.val 0), clrPCT⟩
  | .towErr => ⟨.tow, 0x400, 8, 1, 0, 1, .w1c, (.val 0), clrPC⟩
  | .towPart => ⟨.tow, 0x400, 8, 1, 4, 4, .ro, (.val 0), clrPC⟩
  | .towCode => ⟨.tow, 0x400, 8, 1, 8, 8, .ro, (.val 0), clrPC⟩
  | .towMissed => ⟨.tow, 0x400, 8, 1, 16, 1, .w1c, (.val 0), clrPC⟩
  | .towJobs => ⟨.tow, 0x408, 8, 1, 0, 48, .ro, (.val 0), clrPC⟩
  | .cmdSqLoc => ⟨.cmd, 0x0, 64, 4, 0, 1, .rw, (.val 0), clrPC⟩
  | .cmdSqBase => ⟨.cmd, 0x0, 64, 4, 6, 58, .rw, (.val 0), clrPC⟩
  | .cmdSqSizeLog2 => ⟨.cmd, 0x8, 64, 4, 0, 5, .rw, (.val 4), clrPC⟩
  | .cmdSqEn => ⟨.cmd, 0x8, 64, 4, 5, 1, .rw, (.val 0), clrPC⟩
  | .cmdSqCq => ⟨.cmd, 0x8, 64, 4, 6, 2, .rw, (.val 0), clrPC⟩
  | .cmdSqTail => ⟨.cmd, 0x10, 64, 4, 0, 16, .rw, (.val 0), clrPC⟩
  | .cmdSqHead => ⟨.cmd, 0x18, 64, 4, 0, 16, .ro, (.val 0), clrPC⟩
  | .cmdCqLoc => ⟨.cmd, 0x20, 64, 4, 0, 1, .rw, (.val 0), clrPC⟩
  | .cmdCqBase => ⟨.cmd, 0x20, 64, 4, 6, 58, .rw, (.val 0), clrPC⟩
  | .cmdCqSizeLog2 => ⟨.cmd, 0x28, 64, 4, 0, 5, .rw, (.val 4), clrPC⟩
  | .cmdCqEn => ⟨.cmd, 0x28, 64, 4, 5, 1, .rw, (.val 0), clrPC⟩
  | .cmdCqVector => ⟨.cmd, 0x28, 64, 4, 8, 8, .rw, (.val 0), clrPC⟩
  | .cmdCqCoalN => ⟨.cmd, 0x28, 64, 4, 16, 8, .rw, (.val 0), clrPC⟩
  | .cmdCqCoalUs => ⟨.cmd, 0x28, 64, 4, 24, 8, .rw, (.val 0), clrPC⟩
  | .cmdCqHead => ⟨.cmd, 0x30, 64, 4, 0, 16, .rw, (.val 0), clrPC⟩
  | .cmdCqTail => ⟨.cmd, 0x38, 64, 4, 0, 16, .ro, (.val 0), clrPC⟩
  | .cmdCqPhase => ⟨.cmd, 0x38, 64, 4, 16, 1, .ro, (.val 1), clrPC⟩
  | .fnCqFull => ⟨.cmd, 0x100, 8, 1, 0, 4, .ro, (.val 0), clrPC⟩
  | .fnCqStall => ⟨.cmd, 0x100, 8, 1, 4, 4, .w1c, (.val 0), clrPC⟩
  | .fnFetchErr => ⟨.cmd, 0x100, 8, 1, 8, 1, .w1c, (.val 0), clrPC⟩
  | .fnPartState => ⟨.cmd, 0x100, 8, 1, 9, 3, .ro, (.val 0), clrPC⟩
  | .cmdAperture => ⟨.cmd, 0x108, 8, 1, 30, 10, .rw, (.val 0), clrPC⟩
  | .hqsEn => ⟨.cmd, 0x200, 16, 16, 0, 1, .rw, (.val 0), clrPC⟩
  | .hqsMode => ⟨.cmd, 0x200, 16, 16, 1, 1, .rw, (.val 0), clrPC⟩
  | .hqsTchip => ⟨.cmd, 0x200, 16, 16, 2, 8, .rw, (.val 0), clrPC⟩
  | .hqsTcore => ⟨.cmd, 0x200, 16, 16, 10, 7, .rw, (.val 0), clrPC⟩
  | .hqsTq => ⟨.cmd, 0x200, 16, 16, 17, 4, .rw, (.val 0), clrPC⟩
  | .hqsQuota => ⟨.cmd, 0x200, 16, 16, 21, 13, .rw, (.val 0), clrPC⟩
  | .hqsCredits => ⟨.cmd, 0x200, 16, 16, 34, 13, .ro, (.val 0), clrPC⟩
  | .hqsFlight => ⟨.cmd, 0x200, 16, 16, 48, 16, .rw, (.val 0), clrPC⟩
  | .hqsTorn => ⟨.cmd, 0x208, 16, 16, 0, 16, .rc, (.val 0), clrPC⟩
  | .notifySluice => ⟨.cmd, 0x110, 8, 1, 0, 14, .ro, (.val 0), clrPC⟩
  | .notifyPending => ⟨.cmd, 0x110, 8, 1, 15, 1, .w1c, (.val 0), clrPC⟩
  | .notifyVec => ⟨.cmd, 0x110, 8, 1, 16, 6, .rw, (.val 0), clrPC⟩
  | .notifyCount => ⟨.cmd, 0x110, 8, 1, 32, 32, .rc, (.val 0), clrPC⟩
  | .partState => ⟨.part, 0x0, 256, 16, 0, 3, .ro, (.val 0), clrPC⟩
  | .partQuads => ⟨.part, 0x0, 256, 16, 4, 32, .rw, (.val 0), clrPC⟩
  | .partFcap => ⟨.part, 0x0, 256, 16, 36, 4, .rw, (.val 15), clrPC⟩
  | .winV => ⟨.part, 0x10, 0, 128, 0, 1, .rw, (.val 0), clrPC⟩
  | .winBase => ⟨.part, 0x10, 0, 128, 1, 19, .rw, (.val 0), clrPC⟩
  | .winPages => ⟨.part, 0x10, 0, 128, 20, 19, .rw, (.val 0), clrPC⟩
  | .partXlateEn => ⟨.part, 0x50, 256, 16, 0, 1, .rw, (.val 0), clrPC⟩
  | .partXlateBase => ⟨.part, 0x50, 256, 16, 13, 27, .rw, (.val 0), clrPC⟩
  | .partLinkqReq => ⟨.part, 0x58, 256, 16, 0, 5, .rw, (.val 0), clrPC⟩
  | .partLinkqSluice => ⟨.part, 0x58, 256, 16, 5, 5, .rw, (.val 0), clrPC⟩
  | .partLinkqLedger => ⟨.part, 0x58, 256, 16, 10, 5, .rw, (.val 0), clrPC⟩
  | .partLinkqStream => ⟨.part, 0x58, 256, 16, 15, 5, .rw, (.val 0), clrPC⟩
  | .partXlate => ⟨.part, 0x60, 256, 16, 0, 1, .w1c, (.val 0), clrPC⟩
  | .partAbsorbed => ⟨.part, 0x60, 256, 16, 16, 16, .rc, (.val 0), clrPC⟩
  | .partDownNack => ⟨.part, 0x60, 256, 16, 32, 16, .rc, (.val 0), clrPC⟩
  | .kprStep => ⟨.kpr, 0x0, 8, 1, 0, 4, .ro, (.val 1), clrPC⟩
  | .kprReady => ⟨.kpr, 0x0, 8, 1, 4, 1, .ro, (.val 0), clrPC⟩
  | .kprImage => ⟨.kpr, 0x0, 8, 1, 5, 1, .ro, (.val 0), clrPC⟩
  | .kprAuthFail => ⟨.kpr, 0x0, 8, 1, 6, 1, .ro, (.val 0), clrPC⟩
  | .kprFuseFail => ⟨.kpr, 0x0, 8, 1, 7, 1, .ro, (.val 0), clrPC⟩
  | .kprSvn => ⟨.kpr, 0x0, 8, 1, 8, 8, .ro, .fuse, clrPC⟩
  | .kprZero1Done => ⟨.kpr, 0x0, 8, 1, 16, 1, .ro, (.val 0), clrPC⟩
  | .kprZero2Done => ⟨.kpr, 0x0, 8, 1, 17, 1, .ro, (.val 0), clrPC⟩
  | .kprResetKind => ⟨.kpr, 0x10, 8, 1, 0, 3, .rw, (.val 0), clrPC⟩
  | .kprResetPart => ⟨.kpr, 0x10, 8, 1, 4, 4, .rw, (.val 0), clrPC⟩
  | .kprKeepMem => ⟨.kpr, 0x10, 8, 1, 8, 1, .rw, (.val 0), clrP⟩
  | .kprResetGo => ⟨.kpr, 0x10, 8, 1, 9, 1, .w1s, (.val 0), clrPC⟩
  | .kprResetMask => ⟨.kpr, 0x18, 8, 1, 0, 128, .rw, (.val 0), clrPC⟩
  | .kprMemzeroGo => ⟨.kpr, 0x28, 8, 1, 0, 1, .w1s, (.val 0), clrPC⟩
  | .kprPstateReq => ⟨.kpr, 0x30, 8, 1, 0, 2, .rw, (.val 0), clrPC⟩
  | .kprPstateState => ⟨.kpr, 0x30, 8, 1, 4, 2, .ro, (.val 0), clrPC⟩
  | .kprOffReady => ⟨.kpr, 0x30, 8, 1, 8, 1, .ro, (.val 0), clrPC⟩
  | .kprRefused => ⟨.kpr, 0x30, 8, 1, 9, 1, .w1c, (.val 0), clrPC⟩
  | .kprCommitGo => ⟨.kpr, 0x38, 8, 1, 0, 1, .w1s, (.val 0), clrPC⟩
  | .kprCommitMerged => ⟨.kpr, 0x38, 8, 1, 1, 1, .w1c, (.val 0), clrPC⟩
  | .kprCommitPending => ⟨.kpr, 0x38, 8, 1, 4, 4, .ro, (.val 0), clrPC⟩
  | .kprCommitEpoch => ⟨.kpr, 0x38, 8, 1, 32, 32, .ro, (.val 0), clrPC⟩
  | .kprErrHead => ⟨.kpr, 0x100, 8, 1, 0, 10, .ro, (.val 0), clrPC⟩
  | .kprErrCount => ⟨.kpr, 0x108, 8, 1, 0, 32, .ro, (.val 0), clrPC⟩
  | .kprErrDrop => ⟨.kpr, 0x110, 8, 1, 0, 32, .rc, (.val 0), clrPC⟩
  | .kprErrVector => ⟨.kpr, 0x118, 8, 1, 0, 6, .rw, (.val 0), clrPC⟩
  | .kprErrClassMask => ⟨.kpr, 0x118, 8, 1, 8, 6, .rw, (.val 60), clrPC⟩
  | .kprUeFence => ⟨.kpr, 0x120, 8, 1, 0, 4, .rw, (.val 2), clrPC⟩
  | .kprCeFence => ⟨.kpr, 0x120, 8, 1, 4, 16, .rw, (.val 1024), clrPC⟩
  | .kprFenced => ⟨.kpr, 0x130, 8, 1, 0, 128, .w1s, .fuse, clrPC⟩
  | .dbgEn => ⟨.dbg, 0x0, 8, 1, 0, 1, .rw, (.val 0), clrPCTK⟩
  | .dbgHalt => ⟨.dbg, 0x0, 8, 1, 1, 1, .wo, (.val 0), clrNone⟩
  | .dbgStep => ⟨.dbg, 0x0, 8, 1, 2, 1, .wo, (.val 0), clrNone⟩
  | .dbgResume => ⟨.dbg, 0x0, 8, 1, 3, 1, .wo, (.val 0), clrNone⟩
  | .dbgWrap => ⟨.dbg, 0x0, 8, 1, 4, 1, .rw, (.val 0), clrPCTK⟩
  | .dbgFilter => ⟨.dbg, 0x0, 8, 1, 5, 9, .rw, (.val 0), clrPCTK⟩
  | .dbgHalted => ⟨.dbg, 0x8, 8, 1, 0, 1, .ro, (.val 0), clrPCTK⟩
  | .dbgFull => ⟨.dbg, 0x8, 8, 1, 1, 1, .w1c, (.val 0), clrPCTK⟩
  | .dbgCapErr => ⟨.dbg, 0x8, 8, 1, 2, 1, .w1c, (.val 0), clrPCTK⟩
  | .dbgTraceNext => ⟨.dbg, 0x8, 8, 1, 3, 10, .ro, (.val 0), clrPCTK⟩
  | .dbgTrigKind => ⟨.dbg, 0x10, 8, 1, 0, 2, .rw, (.val 0), clrPCTK⟩
  | .dbgTrigAction => ⟨.dbg, 0x10, 8, 1, 2, 1, .rw, (.val 0), clrPCTK⟩
  | .dbgTrigSet => ⟨.dbg, 0x10, 8, 1, 3, 1, .rw, (.val 0), clrPCTK⟩
  | .dbgTrigCmask => ⟨.dbg, 0x10, 8, 1, 4, 4, .rw, (.val 0), clrPCTK⟩
  | .dbgTrigValue => ⟨.dbg, 0x10, 8, 1, 16, 32, .rw, (.val 0), clrPCTK⟩
  | .dbgCapAddr => ⟨.dbg, 0x18, 8, 1, 0, 40, .rw, (.val 0), clrPCTK⟩
  | .dbgPmcSel => ⟨.dbg, 0x40, 8, 8, 0, 8, .rw, (.val 0), clrPCTK⟩
  | .dbgPmc => ⟨.dbg, 0x80, 8, 8, 0, 48, .ro, (.val 0), clrPCTK⟩
  | .kprPciVendor => ⟨.kpr, 0x200, 8, 1, 0, 16, .ro, .fuse, clrPC⟩
  | .kprPciDevice => ⟨.kpr, 0x200, 8, 1, 16, 16, .ro, .fuse, clrPC⟩
  | .kprStepMajor => ⟨.kpr, 0x200, 8, 1, 32, 4, .ro, .fuse, clrPC⟩
  | .kprStepMinor => ⟨.kpr, 0x200, 8, 1, 36, 4, .ro, .fuse, clrPC⟩
  | .kprForm => ⟨.kpr, 0x200, 8, 1, 40, 8, .ro, .fuse, clrPC⟩
  | .kprSerial => ⟨.kpr, 0x208, 8, 1, 0, 64, .ro, .fuse, clrPC⟩
  | .kprFwBuild => ⟨.kpr, 0x210, 8, 1, 0, 16, .ro, (.val 0), clrPC⟩
  | .kprFwMinor => ⟨.kpr, 0x210, 8, 1, 16, 8, .ro, (.val 0), clrPC⟩
  | .kprFwMajor => ⟨.kpr, 0x210, 8, 1, 24, 8, .ro, (.val 0), clrPC⟩
  | .kprImageSvn => ⟨.kpr, 0x210, 8, 1, 32, 8, .ro, (.val 0), clrPC⟩
  | .kprCapsCores => ⟨.kpr, 0x218, 8, 1, 0, 8, .ro, .fuse, clrPC⟩
  | .kprCapsHbmGib => ⟨.kpr, 0x218, 8, 1, 8, 8, .ro, .fuse, clrPC⟩
  | .kprCapsDdrCh => ⟨.kpr, 0x218, 8, 1, 16, 8, .ro, .fuse, clrPC⟩
  | .kprCapsLinks => ⟨.kpr, 0x218, 8, 1, 24, 8, .ro, .fuse, clrPC⟩
  | .kprIntStatus => ⟨.kpr, 0x400, 8, 1, 0, 13, .int, (.val 0), clrPC⟩
  | .kprIntEn => ⟨.kpr, 0x408, 8, 1, 0, 13, .rw, (.val 0), clrPC⟩
  | .kprIntVec => ⟨.kpr, 0x410, 1, 13, 0, 6, .rw, (.val 0), clrPC⟩
  | .kprGstatus => ⟨.kpr, 0x500, 8, 1, 0, 16, .w1c, (.val 0), clrPC⟩
  | .kprGlogNext => ⟨.kpr, 0x508, 8, 1, 0, 4, .ro, (.val 0), clrPC⟩
  | .kprGlogEvent => ⟨.kpr, 0x580, 8, 16, 0, 8, .ro, (.val 0), clrPC⟩
  | .kprGlogBlock => ⟨.kpr, 0x580, 8, 16, 8, 8, .ro, (.val 0), clrPC⟩
  | .kprGlogInstance => ⟨.kpr, 0x580, 8, 16, 16, 8, .ro, (.val 0), clrPC⟩
  | .kprGlogOffset => ⟨.kpr, 0x580, 8, 16, 24, 20, .ro, (.val 0), clrPC⟩
  | .kprGlogSource => ⟨.kpr, 0x580, 8, 16, 44, 5, .ro, (.val 0), clrPC⟩
  | .kprGlogEpoch => ⟨.kpr, 0x580, 8, 16, 49, 14, .ro, (.val 0), clrPC⟩
  | .kprGlogValid => ⟨.kpr, 0x580, 8, 16, 63, 1, .w1c, (.val 0), clrPC⟩
  | .kprTelemLoc => ⟨.kpr, 0x600, 8, 1, 0, 1, .rw, (.val 0), clrPC⟩
  | .kprTelemBase => ⟨.kpr, 0x600, 8, 1, 6, 58, .rw, (.val 0), clrPC⟩
  | .kprTelemSizeLog2 => ⟨.kpr, 0x608, 8, 1, 0, 5, .rw, (.val 8), clrPC⟩
  | .kprTelemEn => ⟨.kpr, 0x608, 8, 1, 8, 1, .rw, (.val 0), clrPC⟩
  | .kprTelemTail => ⟨.kpr, 0x610, 8, 1, 0, 64, .ro, (.val 0), clrPC⟩
  | .kprTelemLost => ⟨.kpr, 0x618, 8, 1, 0, 32, .rc, (.val 0), clrPC⟩
  | .kprExpertLock => ⟨.kpr, 0x700, 8, 1, 0, 8, .w1s, (.val 0), clrPC⟩
  | .kprKeyHash => ⟨.kpr, 0x800, 8, 1, 0, 384, .ro, .fuse, clrPC⟩
  | .kprFuseSvn => ⟨.kpr, 0x830, 8, 1, 0, 8, .ro, .fuse, clrPC⟩
  | .kprBallastMax => ⟨.kpr, 0x830, 8, 1, 8, 8, .ro, .fuse, clrPC⟩
  | .kprLevelFreq => ⟨.kpr, 0x900, 4, 96, 0, 12, .ro, .fuse, clrPC⟩
  | .kprLevelDraw => ⟨.kpr, 0x900, 4, 96, 12, 12, .ro, .fuse, clrPC⟩
  | .kbChipNum => ⟨.core, 0x800, 8, 1, 0, 8, .rw, (.val 0), clrPC⟩
  | .kbCoreNum => ⟨.core, 0x800, 8, 1, 8, 7, .rw, (.val 0), clrPC⟩
  | .kbPart => ⟨.core, 0x800, 8, 1, 16, 4, .rw, (.val 0), clrPC⟩
  | .kbSlcBase => ⟨.core, 0x800, 8, 1, 20, 14, .rw, (.val 0), clrPC⟩
  | .kbSlcSize => ⟨.core, 0x800, 8, 1, 34, 15, .rw, (.val 0), clrPC⟩
  | .kbIsland => ⟨.core, 0x800, 8, 1, 49, 8, .rw, (.val 0), clrPC⟩
  | .kbProtoFault => ⟨.core, 0x808, 8, 1, 0, 1, .w1c, (.val 0), clrPC⟩
  | .kbPort => ⟨.core, 0x808, 8, 1, 1, 4, .ro, (.val 0), clrPC⟩
  | .kbEpochLost => ⟨.core, 0x808, 8, 1, 5, 1, .w1c, (.val 0), clrPC⟩

/-- The fields of one block. -/
def Blk.fields : Blk → List Fld
  | .klk => [.klkChipNum, .klkTrayLog2, .klkStrapSlot, .klkLocked, .linkHold, .linkRetrain, .linkNarrow, .linkUnquar, .linkState, .linkWidth, .linkPartner, .linkPartnerLink, .linkCableErr, .linkStall, .linkFecCorr, .linkFecUncorr, .linkCrcFail, .linkReplays, .linkRetrains, .linkViolRecent]
      ++ [.linkViolLast, .linkViolTotal, .linkQuar, .klkReach, .nackLogLink, .nackLogReason, .nackLogSeq, .nackLogSlot, .nackLogPartner, .nackLogEpoch, .nackLogValid, .nackNext]
  | .rsv => [.rsvPeakW, .rsvSustainW, .rsvDepth, .rsvAccount, .rsvPStaticMw, .rsvVddMv, .rsvShareWeight, .rsvLossCode, .rsvLossPartition, .rsvLossPartValid, .rsvLossCount]
  | .weir => [.weirUpWMs, .weirDownWMs, .weirMinW, .weirThrottleC, .weirPaceSrc, .weirMaster, .weirFreeW, .weirOffset, .weirStride, .weirSlotNow, .weirFuseUpMin, .weirFuseUpMax, .weirFuseDownMin, .weirFuseDownMax, .weirFusePeakMaxW, .weirFuseDepthMax, .weirFusePaceLock, .weirClamped, .weirShortfall, .weirBreach]
      ++ [.weirPaceLost, .weirPolicyLoss, .weirRampOpen, .weirFloor, .weirSrcInUse, .weirMultiMaster]
  | .acc => [.numInv, .numNanin, .numBlknan, .numOvf, .numSatd, .numUnf, .numIflush, .numIwrap, .accLive, .accSwapPend, .accSwaps, .accHold]
  | .swg => [.swgCode, .swgErr, .swgPruned, .swgSlot, .swgLine, .swgKnext]
  | .seam => [.seamPackAhead, .seamMatched, .seamSegments, .seamFill]
  | .core => [.coreShape, .coreRun, .coreHalted, .corePc, .coreFrzFeed, .coreFrzPromo, .coreMmaCycles, .tstatusCode, .tstatusPc, .tstatusValid, .coreTc, .coreSreg, .coreQlast, .qdEn, .qdBase, .qdCells, .qdGen, .qdLendEn, .qdLendCore, .qdLendQ]
      ++ [.qdLendMin, .qdFlight, .qdHead, .qdTail, .qdDepth, .qdDropped, .qsEn, .qsMode, .qsTchip, .qsTcore, .qsTq, .qsQuota, .qsCredits, .qsFlight, .qsTorn, .qgMember, .kbChipNum, .kbCoreNum, .kbPart, .kbSlcBase]
      ++ [.kbSlcSize, .kbIsland, .kbProtoFault, .kbPort, .kbEpochLost]
  | .spd => [.spdPattern, .spdPairState, .spdBusy, .spdOffAcc, .spdCe, .spdUe, .spdScrubLate, .spdLogRow, .spdLogWord, .spdLogSyndrome, .spdLogKind, .spdLogValid, .spdCeCount, .spdScrubInterval]
  | .dma => [.dmaBusy, .dmaCode, .dmaNum, .dmaBytes]
  | .mc => [.mcSpeed, .mcScrubH, .mcCe, .mcUe, .mcTrainFail, .mcHot, .mcCeCount, .mcLogAddr, .mcLogValid, .mcDirRetry, .mcDirHold]
  | .mcMove => [.moveSrc, .moveDst, .movePartition, .moveGo, .moveDone, .moveCode, .movePasses, .movePoisoned]
  | .bwr => [.classMode, .classPrio, .classBudget, .classMidAt, .classHighAt, .classCritAt, .bwrOver, .bwrOvd, .bwrLogWrap, .bwrWindow, .ovdLogWindow, .ovdLogClass, .ovdLogPort, .ovdLogLines, .ovdLogValid, .ovdNext, .bwrHist]
  | .slc => [.slcPartBase, .slcPartSize, .slcPartEn, .slcPartFlight, .slcRefused, .slcOvf, .slcPoll, .slcTreeLost, .slcLastNum, .slcTreeChildren, .slcDrops, .slcWaiters, .sluiceCount, .sluiceCtrl]
  | .tow => [.towRingEn, .towRingSizeLog2, .towRingDoorbell, .towRingBase, .towRingTaken, .towErr, .towPart, .towCode, .towMissed, .towJobs]
  | .cmd => [.cmdSqLoc, .cmdSqBase, .cmdSqSizeLog2, .cmdSqEn, .cmdSqCq, .cmdSqTail, .cmdSqHead, .cmdCqLoc, .cmdCqBase, .cmdCqSizeLog2, .cmdCqEn, .cmdCqVector, .cmdCqCoalN, .cmdCqCoalUs, .cmdCqHead, .cmdCqTail, .cmdCqPhase, .fnCqFull, .fnCqStall, .fnFetchErr]
      ++ [.fnPartState, .cmdAperture, .hqsEn, .hqsMode, .hqsTchip, .hqsTcore, .hqsTq, .hqsQuota, .hqsCredits, .hqsFlight, .hqsTorn, .notifySluice, .notifyPending, .notifyVec, .notifyCount]
  | .part => [.partState, .partQuads, .partFcap, .winV, .winBase, .winPages, .partXlateEn, .partXlateBase, .partLinkqReq, .partLinkqSluice, .partLinkqLedger, .partLinkqStream, .partXlate, .partAbsorbed, .partDownNack]
  | .kpr => [.kprStep, .kprReady, .kprImage, .kprAuthFail, .kprFuseFail, .kprSvn, .kprZero1Done, .kprZero2Done, .kprResetKind, .kprResetPart, .kprKeepMem, .kprResetGo, .kprResetMask, .kprMemzeroGo, .kprPstateReq, .kprPstateState, .kprOffReady, .kprRefused, .kprCommitGo, .kprCommitMerged]
      ++ [.kprCommitPending, .kprCommitEpoch, .kprErrHead, .kprErrCount, .kprErrDrop, .kprErrVector, .kprErrClassMask, .kprUeFence, .kprCeFence, .kprFenced, .kprPciVendor, .kprPciDevice, .kprStepMajor, .kprStepMinor, .kprForm, .kprSerial, .kprFwBuild, .kprFwMinor, .kprFwMajor, .kprImageSvn]
      ++ [.kprCapsCores, .kprCapsHbmGib, .kprCapsDdrCh, .kprCapsLinks, .kprIntStatus, .kprIntEn, .kprIntVec, .kprGstatus, .kprGlogNext, .kprGlogEvent, .kprGlogBlock, .kprGlogInstance, .kprGlogOffset, .kprGlogSource, .kprGlogEpoch, .kprGlogValid, .kprTelemLoc, .kprTelemBase, .kprTelemSizeLog2, .kprTelemEn]
      ++ [.kprTelemTail, .kprTelemLost, .kprExpertLock, .kprKeyHash, .kprFuseSvn, .kprBallastMax, .kprLevelFreq, .kprLevelDraw]
  | .dbg => [.dbgEn, .dbgHalt, .dbgStep, .dbgResume, .dbgWrap, .dbgFilter, .dbgHalted, .dbgFull, .dbgCapErr, .dbgTraceNext, .dbgTrigKind, .dbgTrigAction, .dbgTrigSet, .dbgTrigCmask, .dbgTrigValue, .dbgCapAddr, .dbgPmcSel, .dbgPmc]

/-- The byte offset of copy `idx` of a field's register. -/
def Fld.regOff (f : Fld) (idx : Nat) : Nat :=
  if f.spec.stride = 0 then 0x10 + 0x100 * (idx / 8) + 8 * (idx % 8) else f.spec.off + f.spec.stride * idx

/-- The bit of the block at which copy `idx` of a field starts. -/
def Fld.bitPos (f : Fld) (idx : Nat) : Nat := 8 * f.regOff idx + f.spec.lo

/-- The copies of a field that have a bit in the `size` bytes from byte `off` of the block. -/
def Fld.copiesAt (f : Fld) (off size : Nat) : List Nat :=
  let cand :=
    if f.spec.stride = 0 then (if off % 0x100 < 0x10 ∨ 0x50 ≤ off % 0x100 then [] else [off / 0x100 * 8 + (off % 0x100 - 0x10) / 8])
    else if f.spec.count = 1 then [0]
    else (List.range (8 / f.spec.stride + 2)).map (fun j => (off - f.spec.off) / f.spec.stride + j - 1)
  (cand.dedup).filter (fun i => decide (i < f.spec.count) &&
    decide (f.bitPos i < 8 * (off + size)) && decide (8 * off < f.bitPos i + f.spec.w))

/-- The width in bytes of the registers of a block: Table 02-5 gives 32 bits for the power registers; every other register is read
as 64 bits wide where its table does not space it closer. -/
def Fld.regBytes (f : Fld) : Nat :=
  match f.spec.blk with
  | .rsv => 4
  | .weir => if f.regOff 0 = 8 then 8 else 4
  | _ => if f.spec.count = 1 then (if f.spec.w ≤ 64 then 8 else f.spec.w / 8) else min 8 f.spec.stride

end Sys2Proof.Machine
end

