-- ==== Sys2Proof/Machine/State.lean ====
section
/-! DEFINITION. The state of the part as plain data: what the register fields hold is in `regs`; everything that the specification gives the
part beside them stands in the structures below. Each default is the value at `State.reset`. -/

namespace Sys2Proof.Machine

/-- The outcome type of the machine is fixed by the interface; this file declares the state and the reasons to stop. -/
abbrev Chip := Nat

/-! ### Fuses, pins and what leaves the part -/

/-- The fused values (19_register_map.md "Identification and fuses", Table 02-8, Table 19-6). They are programmed once in
manufacture and no command writes them, so statements quantify over them. -/
structure Fuses where
  upMin      : Nat := 5
  upMax      : Nat := 400
  downMin    : Nat := 5
  downMax    : Nat := 400
  peakMaxW   : Nat := 1100
  depthMax   : Nat := 511
  paceLock   : Bool := false
  peakW      : Nat := 1100
  sustainW   : Nat := 850
  depth      : Nat := 511
  account    : Nat := 511
  pStaticMw  : Nat := 180000
  vddMv      : Nat := 800
  keyHash    : BitVec 384 := 0
  svn        : Nat := 0
  ballastMax : Nat := 36
  pciVendor  : Nat := 0
  pciDevice  : Nat := 0
  stepMajor  : Nat := 0
  stepMinor  : Nat := 0
  form       : Nat := 1
  serial     : Nat := 0
  capsHbmGib : Nat := 32
  capsDdrCh  : Nat := 12
  capsLinks  : Nat := 24
  /-- cores fenced by fuse -/
  fenced     : BitVec 128 := 0
  /-- FREQ_MHZ of level l of island kind k at place 16k + l (R851) -/
  levelFreq  : List Nat := []
  /-- DRAW of level l of island kind k, in sixteenths of a draw unit, at place 16k + l -/
  levelDraw  : List Nat := []
deriving DecidableEq, Repr

/-- One thing that leaves the part: a write to host memory, an interrupt message, a reply, a link transmission or a pin change. -/
inductive Out where
  /-- a write of bytes at a host bus address; `ep` is the poisoned bit -/
  | hostWrite (addr : Nat) (data : Bytes) (ep : Bool)
  /-- an MSI-X message of a function (16 is the PF) -/
  | msix (fn vec : Nat)
  /-- the data of a register read -/
  | readData (who : Requester) (off size value : Nat)
  /-- the completion data of an aperture read -/
  | apertureData (fn addr : Nat) (data : Bytes) (ep : Bool)
  /-- a PCIe configuration request answered with Request Retry Status -/
  | configRetry (fn off : Nat)
  /-- a PCIe configuration request completed normally -/
  | configDone (fn off : Nat)
  /-- the PCIe link is retrained (R763) -/
  | pcieRetrain
  /-- an MCTP message to the board management controller: its command code, completion code and payload -/
  | mctp (cmd cc : Nat) (data : Bytes)
  /-- an error record reported over MCTP (R795) -/
  | mctpRecord (rec : Bytes)
  /-- a DATA or TRAIN flit sent on a link -/
  | linkFlit (l : Nat) (flit : Bytes)
  /-- a CTRL record sent on a link -/
  | linkCtrl (l : Nat) (rec : CtrlRec)
  /-- a pin of Table 20-8 driven high or low -/
  | pin (name : String) (high : Bool)
  /-- a transfer on the PWR, STAT or TRS port of the YZ2-KB block -/
  | kbPwr (w : Nat)
  | kbStat (w : Nat)
  | kbTrs (w : Nat)
  /-- the register that the TAP connects between TDI and TDO, with the value it captures where the manual gives one -/
  | jtag (reg : String) (value : Option Nat)
deriving DecidableEq, Repr

/-- Start-up and board state that no register field holds. -/
structure Env where
  /-- RESET_N is driven low -/
  resetLow    : Bool := false
  /-- the board asserts PWR_EN; PWR_GOOD is high (Table 20-9) -/
  pwrEn       : Bool := true
  pwrGood     : Bool := true
  thermN      : Bool := false
  thermTrip   : Bool := false
  /-- firmware runs; the ROM waits for a recovery image (R751) -/
  firmware    : Bool := false
  recovery    : Bool := false
  /-- TRAY_QUERY has been answered -/
  trayKnown   : Bool := false
  /-- a tier is trained -/
  trained1    : Bool := false
  trained2    : Bool := false
  /-- the controllers whose zero fill has ended, and the tiers whose fill has begun (R755, R758) -/
  filled      : List Nat := []
  fillStarted : Bool := false
  /-- configuration requests complete normally, exposing only KPR (R753) -/
  configOpen  : Bool := false
  /-- after a CHIP reset with KEEP_MEM = 1 (R759) -/
  keptMem     : Bool := false
  /-- links whose first training attempt has ended (R757) -/
  linkTried   : List Nat := []
  /-- an accepted OFF request powers the partitions down; a return to RUN waits for the pacing slot -/
  offIn       : Bool := false
  /-- KPR_PSTATE.REQ has been written and the request has not been acted on -/
  reqNew      : Bool := false
  runWait     : Bool := false
  /-- an accepted STANDBY request ramps power down (R769); an accepted CHIP reset waits for the Weir's ramp, with its KEEP_MEM (R76) -/
  standbyIn   : Bool := false
  resetWait   : Option Bool := none
  /-- the chip is OFF; the chip is out of service (R802) -/
  off         : Bool := false
  chipOut     : Bool := false
  selfRefresh : Bool := false
  /-- the cores or links of KPR_RESET's mask whose reset is done -/
  resetDone   : Nat := 0
  /-- sluices that have lost a tree message since the latest update of KLK_REACH (R804) -/
  treeLost    : List Nat := []
  /-- the summary bits that have been sent and have not returned to 0 (R852) -/
  intLast     : Nat := 0
  /-- the sticky bits of sources 9 and 10 (Table 19-4) -/
  intSticky   : Nat := 0
  /-- the readings of the latest PMBus round, and the run of mismatches (R97) -/
  pmbus       : List Nat := []
  pmbusRun    : Nat := 0
  tempC       : Nat := 0
deriving DecidableEq, Repr

/-! ### Reservoir and Weir -/

/-- A request of an island: units and activity (Table 02-1). -/
structure PowReq where
  units : Nat
  act   : Nat
deriving DecidableEq, Repr

/-- An island's meter (R64, R65): what is left of the allowance of the sub-window it is in and the charge metered so far in this epoch, both
in sixteenths of a draw unit, and the number of that sub-window. -/
structure Meter where
  allow : Nat
  used  : Nat
  sub   : Nat
deriving DecidableEq, Repr

/-- The Reservoir, the Weir and fleet pacing (chapter 02). Powers named P4 are in quarters of a milliwatt, so that
0.25 A times a whole number of millivolts is a whole number. -/
structure Pow where
  epoch      : Nat := 0
  /-- the request window of this epoch has closed -/
  closed     : Bool := false
  /-- the latest request of each island -/
  reqs       : List (Nat × PowReq) := []
  /-- grants computed for the next epoch: work units, ballast units -/
  grantNext  : List (Nat × Nat) := []
  ballNext   : List (Nat × Nat) := []
  /-- the islands that have received them -/
  recv       : List Nat := []
  /-- grants in effect; the islands that have had one since their reset (R908); levels in use -/
  grant      : List (Nat × Nat) := []
  ballast    : List (Nat × Nat) := []
  granted    : List Nat := []
  level      : List (Nat × Nat) := []
  meters     : List (Nat × Meter) := []
  /-- P of this epoch, P computed for the next one, and the power demanded in the latest window -/
  p4         : Nat := 720000
  p4Next     : Nat := 720000
  demand4    : Nat := 0
  ceil4      : Nat := 0
  floor4     : Nat := 0
  /-- the ceiling, floor, demand and ballast of the epoch in progress, from which the next epoch's band is computed once its window has closed -/
  band       : Nat × Nat × Nat × List (Nat × Nat) := (0, 0, 0, [])
  /-- the ramp-close level, and whether it is to be taken from the next whole epoch (R87) -/
  close4     : Nat := 720000
  closeWait  : Bool := false
  /-- the energy account in units of 0.5 nJ -/
  account    : Nat := 511 * 200000000
  /-- static power in effect, in mW (R98) -/
  statMw     : Nat := 180000
  thermCap4  : Option Nat := none
  /-- every requesting island is held at its MIN (R888) -/
  heldMin    : Bool := false
  /-- pacing: slot values, the epoch within the cycle, the mark of a cycle start, HOLD_ALL -/
  slotCount  : Nat := 256
  slotWidth  : Nat := 2
  slotBase   : Nat := 0
  cycleNo    : Nat := 0
  pacePos    : Option Nat := none
  paceMark   : Bool := false
  holdAll    : Bool := false
  /-- ballast could not reach the floor in the computation for the next epoch (R83) -/
  short      : Bool := false
  /-- demand exceeds the ceiling in the epoch in progress (R86) -/
  overNow    : Bool := false
  /-- the masters whose cycle starts came in this pacing cycle, oldest first (R93) -/
  masters    : List Nat := []
  /-- launches whose URGENT flag asks for a ramp (R720) -/
  urgent     : List Nat := []
deriving DecidableEq, Repr
/-! ### A tensor core -/

/-- An accumulator entry in the full-width layout of R280, with its poison mark (R790). -/
structure AccEntry where
  v      : Nat
  poison : Bool
deriving DecidableEq, Repr

/-- An entry of +0 (R292). -/
def AccEntry.zero : AccEntry := ⟨0, false⟩

/-- A stationary tile: for each lane the compressed-line position it came from and its elements (04_sparse_operands.md), and which
elements are poisoned. `els` holds one element encoding for each lane and column, lane by lane; `sup` marks the elements that the
device supplies (R298). -/
structure Tile where
  fmt     : Nat
  shape   : Nat
  dense   : Bool
  linek   : Bool
  bscale  : Bool
  /-- the span [k0, KNEXT) that the load examined (R183, R185) -/
  k0      : Nat
  knext   : Nat
  /-- the k of each lane, or none where the lane holds no row (R184) -/
  lanes   : List (Option Nat)
  els     : List Nat
  sup     : List Bool
  poison  : List Bool
  /-- the block-scale byte of each element, 127 where the layout has none -/
  scale   : List Nat
deriving DecidableEq, Repr

/-- The record of an accumulator set (R374). -/
structure SetRec where
  fmt        : Nat
  peop       : Nat
  treeop     : Nat
  comp       : Bool
  rscale     : Bool
  rscaleBase : Nat
deriving DecidableEq, Repr

/-- A scoreboard entry (R227): the read ranges and the write ranges in rows, first and last; `post` marks the entry of a posted store, whose
narrow slot is still to come (R407). -/
structure SbEntry where
  id     : Nat
  reads  : List (Nat × Nat)
  writes : List (Nat × Nat)
  post   : Bool
deriving DecidableEq, Repr

/-- What a dispatch entry does. -/
inductive DispKind where
  | lds
  | mma
  | swap
  | drain
  | dma
  | dload
  | uload
  | count
  | merge
  /-- a GATE entry (R402), with its wait-table entry -/
  | gate (wid : Nat)
deriving DecidableEq, Repr

/-- A dispatch-queue entry with everything it copied at issue (R366, Table 08-8): the instruction word, the program counter, the
values of the index registers RA and RB and of RC and RT, the configuration words, the descriptors and the set record. -/
structure Disp where
  id    : Nat
  kind  : DispKind
  word  : Nat
  pc    : Nat
  ea    : Nat
  eb    : Nat
  xc    : Nat
  xt    : Nat
  tc0   : Nat
  tc1   : Nat
  tc2   : Nat
  descs : List Nat
  srec  : Option SetRec
deriving DecidableEq, Repr

/-- What a started MMA does to one entry (R269, R278): its array and place, the starting value (none: the live entry as it stands),
whether NEW starts it, which takes its old poison mark away (R791), whether the entry is marked poisoned, and the group sums in promotion order. A bitwise group sum is an integer. -/
structure Promo where
  array  : Nat
  idx    : Nat
  start  : Option Nat
  fresh  : Bool
  poison : Bool
  sums   : List Val
deriving DecidableEq, Repr

/-- The promotions of an MMA that wait for an earlier SWAP (R288). -/
structure HeldMma where
  id     : Nat
  treeop : Nat
  peop   : Nat
  fmt    : Nat
  comp   : Bool
  sat    : Bool
  /-- the arrays whose live set a stopped decode leaves undefined, in place of the promotions -/
  undef  : List Nat
  promos : List Promo
deriving DecidableEq, Repr

/-- One memory request of a DMA transfer (R495): its place in run order, its system address and length on the memory side, and its pieces as
(offset within the request, scratchpad offset, bytes on the memory side, bytes on the scratchpad side). `skew` marks a request of an atomic
transfer whose run is not aligned or not of whole elements (R501). -/
structure DmaReq where
  n      : Nat
  addr   : Nat
  len    : Nat
  pieces : List (Nat × Nat × Nat × Nat)
  skew   : Bool
deriving DecidableEq, Repr

/-- A DMA transfer that an engine has taken (chapter 10). -/
structure DmaXfer where
  id      : Nat
  eng     : Nat
  pc      : Nat
  dir     : Nat
  sig     : Bool
  sluice  : Nat
  /-- the requests not yet sent, those outstanding with their tags, and the first failing status in run order -/
  todo    : List DmaReq
  out     : List (Nat × DmaReq)
  fail    : Nat
  failAt  : Nat
  desc    : Nat
deriving DecidableEq, Repr

/-- A posted SIGNAL, RESET or ARM (R399): the instructions that ORD makes it follow, and the tag of its message. -/
structure Posted where
  id     : Nat
  pc     : Nat
  ord    : List Nat
  op     : Nat
  chip   : Nat
  num    : Nat
  val    : Nat
  tag    : Nat
deriving DecidableEq, Repr

/-- A wait-table entry (R403): a WAIT, or the GATE of some queues. `state` is 0 while the record travels or waits at the bank, 1 when the
bank refused the record (R575), 2 once the wake has come to a core that is halted (R424), with the status `code`. -/
structure WaitEnt where
  wid   : Nat
  gate  : Bool
  chip  : Nat
  num   : Nat
  val   : Nat
  pc    : Nat
  state : Nat
  code  : Nat
deriving DecidableEq, Repr

/-- What holds the sequencer at its instruction once that instruction has been accepted. -/
inductive Hold where
  | none
  /-- SPWR until these pairs are ON (R410) -/
  | spwr (mask : Nat)
  /-- CFG or CFGR until the change of SHAPE is done (R364) -/
  | shape (target : Nat)
  /-- WAIT (R400) -/
  | wait (wid : Nat)
  /-- QPUSH under TRY = 0 short of credits (R392) -/
  | push
  /-- QPUSH between the reads of the two cells of an item (R441, R451): its scoreboard number (R395), the member charged (0 in DIRECT mode),
  the target chip, core and queue, and the cell read with its status -/
  | pushMid (id member chip core q : Nat) (cell : Bytes) (status : Nat)
  /-- QPOP under TRY = 0 on an empty queue (R393) -/
  | pop
  /-- TEST of a sluice on another chip (R401) -/
  | test (tag : Nat)
deriving DecidableEq, Repr

/-- A published item of a stage queue: its cells and the send entry that its credits return to (R437). `host` marks a host send entry. -/
structure QItem where
  q     : Nat
  words : Nat
  cells : Nat
  host  : Bool
  chip  : Nat
  core  : Nat
  entry : Nat
deriving DecidableEq, Repr

/-- A popped barge: the core and queue that it was taken from, its bytes, and whether one of its words was poisoned. -/
structure Barge where
  core   : Nat
  queue  : Nat
  data   : Bytes
  poison : Bool
deriving DecidableEq, Repr

/-- A tensor core, or the YZ2-KB block: everything that no register field holds. -/
structure Core where
  /-- program store words (R223), descriptor slots and microcode words that have been written since their contents were last
  undefined, and the generations that name undefined contents (generation 0 reads 0) -/
  pstore   : List (Nat × Nat) := []
  psGen    : Nat := 0
  desc     : List (Nat × Nat) := []
  dsGen    : Nat := 0
  ucode    : List (Nat × Nat) := []
  ucGen    : Nat := 0
  /-- a teardown scrub has zeroed the three stores since (R736): what is not listed then reads 0 -/
  zeroed   : Bool := false
  /-- scratchpad bytes, unlisted bytes 0 (R329, Table 07-5), and the poisoned 8-byte words (R341) -/
  spd      : List Host.Cell := []
  spdPsn   : List Nat := []
  /-- pair transitions: (pair, target) in progress, and requested behind them (R331, R348) -/
  pairRun  : List (Nat × Nat) := []
  pairNext : List (Nat × Nat) := []
  /-- the number that the next dispatched instruction had when a pair's state was last asked for, by pair (R331) -/
  pairReq  : List (Nat × Nat) := []
  /-- the state each pair is in, coded as PAIR_STATE, whose own field holds the state last asked for -/
  pairAct  : Nat := 0xFFFF
  /-- the next row of the scrub pass, and a write-back that waits (R342, R347) -/
  scrubRow : Nat := 0
  scrubWb  : Option Nat := none
  /-- accumulators: key ((physical set × 4 + array) × 8,192 + entry) -/
  acc      : List (Nat × AccEntry) := []
  /-- physical set × 4 + array: the generation of contents that a stopped decode left undefined (R173); 0 for none -/
  accGen   : List (Nat × Nat) := []
  active   : Option Tile := none
  standby  : Option Tile := none
  /-- a stopped stationary load has left the standby buffers empty (R173) -/
  standbyBad : Bool := false
  recLive  : Option SetRec := none
  recShadow : Option SetRec := none
  sb       : List SbEntry := []
  qFeed    : List Disp := []
  qDrain   : List Disp := []
  qDma     : List Disp := []
  qFront   : List Disp := []
  heldMma  : List HeldMma := []
  xfers    : List DmaXfer := []
  posted   : List Posted := []
  waits    : List WaitEnt := []
  hold     : Hold := .none
  nextId   : Nat := 0
  /-- the program counter has passed instruction 4,095 (R231) -/
  pcOver   : Bool := false
  /-- a status was raised under ERRSTOP, or the task is being halted (R416) -/
  stopping : Bool := false
  /-- the task's launch, if it belongs to one, and core cycles since it started (Table 08-10) -/
  launch   : Option Nat := none
  tasked   : Bool := false
  cycles   : Nat := 0
  /-- the power state C0 to C3 in force, the one requested, and the pairs that C2 put in RETAIN (R332) -/
  cstate   : Nat := 1
  cReq     : Option Nat := none
  c2Pairs  : Nat := 0
  /-- queue engine: the items of each ring, the producers since the last flush, the credits of DEAL members (entry × 8 + member),
  the deal rotation (entry: member × 16 + count) and the queues that look for a marker (R453) -/
  items    : List QItem := []
  pushers  : List (Nat × Nat) := []
  dealCr   : List (Nat × Nat) := []
  dealPos  : List (Nat × Nat) := []
  /-- the GEN that each send entry last learned, by entry × 8 + member (R449, R452) -/
  sendGen  : List (Nat × Nat) := []
  resync   : List Nat := []
  /-- the last popped barge, which CORE_QLAST records (R468) -/
  barge    : Option Barge := none
  /-- times in seconds of uncorrectable and corrected scratchpad errors (Table 17-3) -/
  ueTimes  : List Nat := []
  ceTimes  : List Nat := []
  /-- debug: one STEP is allowed; the capture trigger has fired; the trace memory; the trigger of a COPY capture in progress -/
  fired    : Bool := false
  stepOne  : Bool := false
  trace    : List (Nat × Nat) := []
  capture  : Option Nat := none
  /-- corrected errors of the present 1 s interval (R789) -/
  corrected : Nat := 0
deriving DecidableEq, Repr
/-! ### Messages, memory, regulation, sluices, host -/

/-- What a message asks or answers (Table 13-4 and the protocols of chapters 09, 10 and 12). -/
inductive MsgOp where
  | read
  | write
  | atomic
  | ledgerAdd
  | ledgerSettle
  | readData
  | complete
  | nack
  | item
  | credit
  | flush
  | sop
  | waiter
  | wake
  | slcAck
  | treeArrive
  | treeRelease
  | paceTime
  | keeper
  | rewrite
deriving DecidableEq, Repr

/-- A message in flight. Units are named by the island numbers of Table 02-10: a core by its number, the host block by 184, a Towpath
engine by 233 + e, link l by 208 + l. `part` 16 stands for a chip-level source. `code` holds a status or reason in an answer, the SOP code
in a sluice operation, and the atomic operation, type and SAT and SIGNED bits in an atomic. -/
structure Msg where
  op      : MsgOp
  srcChip : Nat := 0
  src     : Nat := 0
  /-- engine, send entry or ring of the source unit -/
  sub     : Nat := 0
  dstChip : Nat := 0
  dst     : Nat := 0
  dsub    : Nat := 0
  part    : Nat := 16
  flight  : Nat := 0
  /-- the source's name for the request, and the request's place in its transfer -/
  tag     : Nat := 0
  seq     : Nat := 0
  /-- device address, sluice number, or first word of the message's subject -/
  addr    : Nat := 0
  len     : Nat := 0
  code    : Nat := 0
  arg     : Nat := 0
  data    : Bytes := []
  poison  : Bool := false
  /-- numeric events (R505) -/
  events  : Nat := 0
  /-- regulation class and port, urgency at injection, and over budget under DEMOTE (R541, R544) -/
  cls     : Nat := 0
  port    : Nat := 0
  urg     : Nat := 0
  demoted : Bool := false
  /-- the link it arrived on, 24 for none -/
  link    : Nat := 24
  lane    : Nat := 0
deriving DecidableEq, Repr

/-- A request waiting at a memory controller, with its arrival time in ns and its place in arrival order. -/
structure CtlReq where
  msg : Msg
  t   : Nat
  ord : Nat
deriving DecidableEq, Repr

/-- A directory entry (Table 10-8): state 0 U, 1 S, 2 X, 3 B, the sharers, the owner, the requests waiting while busy as (cache, wants
ownership), the requests held under R524, the holders whose answer is outstanding, and whether the line gives its entry up (R520, R532). -/
structure DirEnt where
  st      : Nat := 0
  sharers : List Nat := []
  owner   : Nat := 0
  waiting : List (Nat × Bool) := []
  held    : List (Nat × Bool) := []
  toAck   : List Nat := []
  reuse   : Bool := false
deriving DecidableEq, Repr

/-- One line of one cache: state 0 I, 1 S, 2 E, 3 M, its data, its pending request (0 none, 1 GETS, 2 GETX), the store it waits to make,
the RETRYs received, whether a reissue waits, and whether a PUTM or PUTE is outstanding. -/
structure CacheLine where
  st      : Nat := 0
  data    : Nat := 0
  pend    : Nat := 0
  store   : Option (BitVec 512) := none
  retries : Nat := 0
  reissue : Bool := false
  put     : Nat := 0
deriving DecidableEq, Repr

/-- A message between a cache and the directory. -/
inductive CohKind where
  | gets | getx | putm | pute | dataS | dataX | ackX | wbAck | retry | inv | recall
deriving DecidableEq, Repr

structure CohMsg where
  kind  : CohKind
  cache : Nat
  line  : Nat
  data  : Nat
deriving DecidableEq, Repr

/-- A move of a page (Table 10-7): phase 1 to 3, passes used, marked lines, source and destination device pages, the translator entry
it will rewrite, and accesses held under phase 3. -/
structure Mover where
  phase  : Nat := 0
  part   : Nat := 0
  src    : Nat := 0
  dst    : Nat := 0
  pa     : Nat := 0
  passes : Nat := 0
  marked : List Nat := []
  held   : List Msg := []
  pid    : Option Nat := none
deriving DecidableEq, Repr

/-- A port of a traffic class (chapter 11): lines counted in this window, debt, overdraft, urgency, fill in sixteenths (TOWDL), the requests
it holds, whether it is cut off for the window (R548), and the lines of accesses that the model has made in one step and the port has yet to
inject (R535, R545). -/
structure BwPort where
  count : Nat := 0
  debt  : Nat := 0
  overd : Nat := 0
  urg   : Nat := 0
  fill  : Nat := 0
  held  : List Msg := []
  cut   : Bool := false
  late  : Nat := 0
deriving DecidableEq, Repr

/-- A waiter record at a sluice bank (R574): a core's wait-table entry, or a SLUICE_OP packet (core 184). `taken` is a SEMAPHORE
acquisition whose wake has not been delivered (R597). -/
structure Waiter where
  num   : Nat
  chip  : Nat
  core  : Nat
  wid   : Nat
  val   : Nat
  part  : Nat
  taken : Bool
deriving DecidableEq, Repr

/-- A packet that has been fetched (R701): its serial number, function, ring and bytes, and whether it has started. -/
structure Packet where
  pid     : Nat
  fn      : Nat
  ring    : Nat
  bytes   : Bytes
  started : Bool
  /-- it waits for something inside the part: 0 nothing, 1 zero fill, 2 STANDBY exit, 3 power-down, 4 credits, 5 a sluice message, 6 a move,
  7 the end of its launch -/
  wait    : Nat := 0
  discard : Bool := false
  /-- the tag of the sluice message it waits for, and the cores or links of its mask whose reset is done -/
  tag     : Nat := 0
  done    : Nat := 0
deriving DecidableEq, Repr

/-- A status entry that waits to be written at its completion ring (R704). -/
structure StatusRec where
  fn     : Nat
  ring   : Nat
  cq     : Nat
  status : Nat
  fast   : Bool
  tag    : Nat
  opcode : Nat
  part   : Nat
  num    : Nat
  r0     : Nat
  r1     : Nat
deriving DecidableEq, Repr

/-- A running launch (R718). -/
structure Launch where
  lid      : Nat
  pid      : Nat
  fn       : Nat
  part     : Nat
  cores    : List Nat
  fallback : Nat
  done     : Nat
  doneEn   : Bool
  timeout  : Nat
  urgent   : Bool
  /-- the status that overrides the cores' statuses, 0 for none -/
  forced   : Nat := 0
  /-- the cores whose task has ended: core, status, program counter -/
  ended    : List (Nat × Nat × Nat) := []
  maxCyc   : Nat := 0
  num      : Nat := 0
  /-- the partition address of each core's record, and the fallback maps already applied (R471) -/
  recs     : List (Nat × Nat) := []
  maps     : List Nat := []
deriving DecidableEq, Repr

/-- What a partition keeps beside its registers: its creation values (R760), the grace of a PART_STOP and its RETAIN flag, and the level-2
tables of its translator. -/
structure Part where
  share   : Nat := 0
  slcFlight : Nat := 0
  towMask : Nat := 0
  towLog2 : Nat := 0
  towBase : Nat := 0
  towDb   : Nat := 0
  grace   : Bool := false
  retain  : Bool := false
  /-- level-2 tables in use -/
  tables  : Nat := 0
deriving DecidableEq, Repr

/-- A completion ring's coalescing state (R706) and a function's held statuses. -/
structure CqState where
  held   : List StatusRec := []
  /-- CQ_TAIL has gone a whole ring beyond CQ_HEAD; the entries written since the latest interrupt -/
  full   : Bool := false
  count  : Nat := 0
deriving DecidableEq, Repr

/-- The host block: rings, packets, launches, partitions, queries. -/
structure HostSt where
  nextPid  : Nat := 0
  nextLid  : Nat := 0
  packets  : List Packet := []
  launches : List Launch := []
  parts    : List (Nat × Part) := []
  /-- key function × 4 + ring -/
  cqs      : List (Nat × CqState) := []
  /-- the record count at each function's latest SEL 4 query (R794) -/
  queried  : List (Nat × Nat) := []
  /-- MSI-X table entries (function × 64 + vector) -/
  msix     : List (Nat × Nat) := []
  /-- the GEN that each host send entry last learned: function × 16 + entry (R449) -/
  gens     : List (Nat × Nat) := []
deriving DecidableEq, Repr

/-- An error record of Table 17-4 with the fields that merging needs. -/
structure ErrRec where
  cls    : Nat
  source : Nat
  unit   : Nat
  part   : Option Nat := none
  code   : Nat := 0
  action : Nat := 0
  addr   : Nat := 0
  epoch  : Nat := 0
  count  : Nat := 1
  detail : Nat := 0
  pc     : Nat := 0
  seq    : Nat := 0
  stage  : Nat := 0
  flight : Nat := 0
  /-- its place in the order of writing, and its slot of the ring (R793) -/
  ord    : Nat := 0
  slot   : Nat := 0
deriving DecidableEq, Repr
/-! ### Links, Towpath, the YZ2-KB block and the whole state -/

/-- A Kolnal link beyond its registers (chapter 13). Credits are listed at place 2 × VC + lane. -/
structure Link where
  /-- failed attempts in a row, a wait of 100 ms before the next, training in progress, and a fast retrain (R617) -/
  attempts : Nat := 0
  retryWait : Bool := false
  training : Bool := false
  fast     : Bool := false
  /-- sender: the next SEQ, and the DATA flits that no ACK covers (R612) -/
  txSeq    : Nat := 0
  unacked  : List (Nat × List Msg) := []
  credits  : List (Nat × Nat) := []
  /-- who holds the slots that the partner has not reported freed (R733): by channel and lane, (partition, slots) in order of sending; 16 stands
  for a message that no partition of this chip originated -/
  used     : List (Nat × List (Nat × Nat)) := []
  /-- the cumulative reports last received from the partner, and the slots freed for it -/
  seen     : List (Nat × Nat) := []
  freed    : List (Nat × Nat) := []
  l1turn   : Nat := 0
  waiting  : List Msg := []
  /-- slots of received messages that are not yet freed -/
  held     : List (Nat × Nat) := []
  /-- receiver: the expected SEQ, whether any flit has been delivered, the pending REPLAY and how often it was sent -/
  rxSeq    : Nat := 0
  rxAny    : Bool := false
  replayOn : Bool := false
  replays  : Nat := 0
  /-- times in ns of the violations of the last 1 ms (R634), of the latest received frame, and the last time a PARTNER record was written (R807) -/
  violT    : List Nat := []
  now      : Nat := 0
  recordT  : Option Nat := none
  /-- it has left UP and waits for a HANDOVER (R637) -/
  downWait : Bool := false
deriving DecidableEq, Repr

/-- A job that an engine has taken (R650): its partition, the value of TAKEN of its slot, its descriptor, and the time at which its
doorbell SIGNAL took effect (R654). -/
structure TowJob where
  part : Nat
  slot : Nat
  desc : Bytes
  t0   : Nat
  ord  : Nat
deriving DecidableEq, Repr

/-- An edge whose check is due or done in the present batch: the node it leaves (or the candidate), its record number, and the outcome of
its check: accepted with this cost and h. -/
structure TowEdge where
  u      : Nat
  g      : Nat
  idx    : Nat
  target : Nat
  done   : Bool
  ok     : Bool
  cost   : Nat
  h      : Nat
deriving DecidableEq, Repr

/-- A running job. -/
structure TowRun where
  job      : TowJob
  /-- (key, payload, order of insertion) -/
  queue    : List (Nat × Nat × Nat) := []
  nextOrd  : Nat := 0
  edges    : List TowEdge := []
  expanded : Nat := 0
  checked  : Nat := 0
  rejected : Nat := 0
  qtrunc   : Bool := false
  progEnd  : Bool := false
  /-- best reached nodes (h, cost, node), or admissible candidates (cost, candidate, 0) -/
  best     : List (Nat × Nat × Nat) := []
  goalG    : Nat := 0
  cand     : Nat := 0
deriving DecidableEq, Repr

/-- The result of a job that has ended and is being made visible (R685): its partition, traffic class, DONE sluice and whether it is signalled, and
what is to be written at which partition addresses. -/
structure TowDone where
  part  : Nat
  cls   : Nat
  num   : Nat
  sig   : Bool
  recs  : List (Nat × Bytes)
deriving DecidableEq, Repr

/-- A Towpath engine. `done` lists the results that are being made visible. -/
structure Tow where
  prog    : List (Nat × Nat) := []
  progGen : Nat := 0
  jobs    : List TowJob := []
  run     : Option TowRun := none
  rr      : Nat := 0
  nextOrd : Nat := 0
  done    : List TowDone := []
  /-- the latest time in ns that a step of the engine was given -/
  now     : Nat := 0
deriving DecidableEq, Repr

/-- What the IEEE 1500 wrapper of the YZ2-KB block does (R899). -/
inductive WsMode where
  | bypass
  | extest
  | intest
  | scan
  | memTest
deriving DecidableEq, Repr

/-- The YZ2-KB block's environment: RST_N low, the mode of its wrapper, the headers that its MRS and SIN ports took last (R869), and the grant in
effect. -/
structure Kb where
  rstLow  : Bool := false
  wrapper : WsMode := .bypass
  mrs0    : Nat := 0
  mrs1    : Nat := 0
  sin     : Nat := 0
  fenced  : Bool := false
  granted : Bool := false
  atMin   : Bool := false
  epoch   : Nat := 0
  units   : Nat := 0
  ballast : Nat := 0
deriving DecidableEq, Repr

/-- External memory: bytes by device address, unlisted bytes 0, and the poisoned 64-byte lines. -/
structure Memory where
  cells  : List Host.Cell := []
  poison : List Nat := []
deriving DecidableEq, Repr

/-- A telemetry record on its way to the ring (R855): whether the ring lies in host memory, its address there and its bytes. -/
structure TelemRec where
  host : Bool
  addr : Nat
  data : Bytes
deriving DecidableEq, Repr

/-- The memory controllers, regulation ports, directory and caches, movers. -/
structure MemSys where
  /-- requests by controller, and the next place in arrival order -/
  queues  : List (Nat × List CtlReq) := []
  nextOrd : Nat := 0
  /-- ports by class × 256 + port -/
  ports   : List (Nat × BwPort) := []
  /-- line lists of directory and caches: directory by line; caches by cache × 2^24 + line -/
  dir     : List (Nat × DirEnt) := []
  cache   : List (Nat × CacheLine) := []
  coh     : List CohMsg := []
  mv0     : Mover := {}
  mv1     : Mover := {}
  /-- telemetry records that the TELEM port has yet to write (Table 11-1), oldest first -/
  telem   : List TelemRec := []
  /-- the latest time in ns that a controller was given -/
  now     : Nat := 0
deriving DecidableEq, Repr

/-- The state of the part. Every default below is the value right after the release of RESET_N. -/
structure State where
  /-- the commands that wait, first in, first out -/
  pending : List Instr := []
  /-- register fields that differ from their reset value, by key (`Fld.key`) -/
  regs    : List (Nat × Nat) := []
  fuses   : Fuses := {}
  env     : Env := {}
  /-- pending copies of staged fields that differ from the value in effect (R774), the values that GO captured (R775), and the values
  that the latest COMMIT replaced, for the first epoch or window (R777); all by register key -/
  pend    : List (Nat × Nat) := []
  capt    : List (Nat × Nat) := []
  old     : List (Nat × Nat) := []
  pow     : Pow := {}
  cores   : List (Nat × Core) := []
  mem     : Memory := {}
  ms      : MemSys := {}
  /-- messages in flight, oldest first -/
  net     : List Msg := []
  nextTag : Nat := 0
  waiters : List Waiter := []
  links   : List (Nat × Link) := []
  tows    : List (Nat × Tow) := []
  host    : HostSt := {}
  /-- error records (R793), oldest first, and how many have been numbered -/
  errs    : List ErrRec := []
  errOrd  : Nat := 0
  /-- what the record slots hold from before the latest reset, which clears none of them (Table 19-6): (slot, record) -/
  errOld  : List (Nat × Nat) := []
  /-- corrections of memory controllers and links in the present 1 s interval (R789), by source × 256 + unit -/
  corr    : List (Nat × Nat) := []
  /-- KEEPER messages in the Keeper's MGMT inbox (R639) -/
  inbox   : List Msg := []
  kb      : Kb := {}
  /-- the selected TAP register (R897) -/
  tap     : String := "IDCODE"
  /-- the model's own counter that names the free values drawn so far -/
  free    : Nat := 0
  /-- what has left the part, oldest first -/
  out     : List Out := []
deriving DecidableEq, Repr

/-- Why a step stops with a fault. -/
inductive Fault where
  /-- Raised by no meaning: this part has no operation that stops it. The interface asks for the type. Safe. -/
  | none
deriving DecidableEq, Repr

/-- Why a step refuses a command. -/
inductive Refusal where
  /-- A command whose meaning is not written yet. Safe. -/
  | notModelled (mnemonic : String)
deriving DecidableEq, Repr

/-- The part right after the release of RESET_N with supplies in limits: start-up step 1 reached (Table 16-1, KPR_BOOT.STEP reset value 1),
every field at its Reset value. -/
def State.reset : State := {}

end Sys2Proof.Machine
end

