-- ==== Sys2Proof/Machine/Tab.lean ====
section
/-! DEFINITION. Sparse tables: lists of (key, value) pairs in one canonical form, keys strictly rising and no entry equal to
what an unlisted key reads as. Memory, scratchpads and the register file are held in them. -/

namespace Sys2Proof.Machine

/-- What key `k` reads as; `d` is what an unlisted key reads as. -/
def tabGet {α : Type} (d : α) (k : Nat) : List (Nat × α) → α
  | [] => d
  | (a, v) :: t => if a = k then v else tabGet d k t

/-- Puts (k, v) before the first larger key. -/
def tabInsert {α : Type} (k : Nat) (v : α) : List (Nat × α) → List (Nat × α)
  | [] => [(k, v)]
  | (a, w) :: t => if k < a then (k, v) :: (a, w) :: t else (a, w) :: tabInsert k v t

/-- Takes key `k` out. -/
def tabErase {α : Type} (k : Nat) : List (Nat × α) → List (Nat × α)
  | [] => []
  | (a, w) :: t => if a = k then tabErase k t else (a, w) :: tabErase k t

/-- Makes key `k` read as `v`: the entry is dropped where `v` is what an unlisted key reads as. -/
def tabSet {α : Type} [DecidableEq α] (d : α) (k : Nat) (v : α) (t : List (Nat × α)) : List (Nat × α) :=
  if v = d then tabErase k t else tabInsert k v (tabErase k t)

/-- Keeps the entries whose key passes. -/
def tabKeep {α : Type} (p : Nat → Bool) : List (Nat × α) → List (Nat × α)
  | [] => []
  | (a, w) :: t => if p a then (a, w) :: tabKeep p t else tabKeep p t

/-- The canonical form: strictly rising keys, no listed default. -/
def tabWf {α : Type} [DecidableEq α] (d : α) : List (Nat × α) → Bool
  | [] => true
  | [(_, v)] => decide (v ≠ d)
  | (a, v) :: (b, w) :: t => decide (a < b) && decide (v ≠ d) && tabWf d ((b, w) :: t)

/-- A rising set of numbers: adds one. -/
def setAdd (k : Nat) : List Nat → List Nat
  | [] => [k]
  | a :: t => if k < a then k :: a :: t else if k = a then a :: t else a :: setAdd k t

/-- A rising set of numbers: takes one out. -/
def setDel (k : Nat) (l : List Nat) : List Nat := l.filter (fun a => decide (a ≠ k))

end Sys2Proof.Machine
end

