-- ==== Sys2Proof/Machine/Ops.lean ====
section
/-! DEFINITION. The named operations that every meaning is built from: register fields, cores and other tables, the global status,
error records, interrupts, and what leaves the part. -/

namespace Sys2Proof.Machine

/-! ### Register fields -/

/-- The place of copy `idx` of a field of instance `inst` of its block in the register file. -/
def Fld.key (f : Fld) (inst idx : Nat) : Nat := (f.ctorIdx * 256 + inst) * 32768 + idx

/-- The fused reset values (R13, "F"). DESIGN CHOICE (log 107): SLC_TREE.CHILDREN has Reset F but is computed when LOCKED is set (Table 12-4); what it holds
before that is left open, and reads 0. -/
def fuseVal (fu : Fuses) (f : Fld) (idx : Nat) : Nat :=
  match f with
  | .rsvPeakW => fu.peakW
  | .rsvSustainW => fu.sustainW
  | .rsvDepth => fu.depth
  | .rsvAccount => fu.account
  | .rsvPStaticMw => fu.pStaticMw
  | .rsvVddMv => fu.vddMv
  | .weirUpWMs => fu.upMin
  | .weirDownWMs => fu.downMin
  | .weirFuseUpMin => fu.upMin
  | .weirFuseUpMax => fu.upMax
  | .weirFuseDownMin => fu.downMin
  | .weirFuseDownMax => fu.downMax
  | .weirFusePeakMaxW => fu.peakMaxW
  | .weirFuseDepthMax => fu.depthMax
  | .weirFusePaceLock => b2n fu.paceLock
  | .kprSvn => fu.svn
  | .kprFuseSvn => fu.svn
  | .kprFenced => fu.fenced.toNat
  | .kprPciVendor => fu.pciVendor
  | .kprPciDevice => fu.pciDevice
  | .kprStepMajor => fu.stepMajor
  | .kprStepMinor => fu.stepMinor
  | .kprForm => fu.form
  | .kprSerial => fu.serial
  | .kprCapsCores => 128 - countOnes 128 fu.fenced.toNat
  | .kprCapsHbmGib => fu.capsHbmGib
  | .kprCapsDdrCh => fu.capsDdrCh
  | .kprCapsLinks => fu.capsLinks
  | .kprKeyHash => fu.keyHash.toNat
  | .kprBallastMax => fu.ballastMax
  | .kprLevelFreq => nth fu.levelFreq idx 0
  | .kprLevelDraw => nth fu.levelDraw idx 0
  | _ => 0

/-- Reset values that the tables give index by index: the configuration words (Table 08-12) and the class fields (Tables 11-1, 11-3). -/
def indexVal (f : Fld) (idx : Nat) : Nat :=
  match f with
  | .coreTc => if idx = 0 then 0x10000000 else 0
  | .classPrio => nth [6, 6, 5, 7, 3, 1, 2, 4] idx 0
  | .classMidAt => if idx < 4 then 8 else 0
  | .classHighAt => if idx < 4 then 0xC else 0
  | .classCritAt => if idx < 4 then 0xE else 0
  | _ => 0

/-- The Reset column of a field (R13). -/
def resetVal (fu : Fuses) (f : Fld) (idx : Nat) : Nat :=
  match f.spec.rst with
  | .val n => n
  | .fuse => fuseVal fu f idx
  | .byIndex => indexVal f idx

/-- The value that copy `j` of field `f` of block instance `i` holds, in the field's width. -/
def State.reg (s : State) (f : Fld) (i j : Nat) : Nat := tabGet (resetVal s.fuses f j) (f.key i j) s.regs % 2 ^ f.spec.w

/-- Writes a field, cut to its width. -/
def State.setReg (s : State) (f : Fld) (i j v : Nat) : State :=
  { s with regs := tabSet (resetVal s.fuses f j) (f.key i j) (v % 2 ^ f.spec.w) s.regs }

/-- A field with one copy in a block with one instance. -/
def State.rd (s : State) (f : Fld) : Nat := s.reg f 0 0

/-- Writes a field with one copy in a block with one instance. -/
def State.wr (s : State) (f : Fld) (v : Nat) : State := s.setReg f 0 0 v

/-- Adds to a counter field that saturates at its width. -/
def State.bump (s : State) (f : Fld) (i j n : Nat) : State :=
  s.setReg f i j (satAdd f.spec.w (s.reg f i j) n)

/-- Adds to a counter field that wraps. -/
def State.count (s : State) (f : Fld) (i j n : Nat) : State := s.setReg f i j (s.reg f i j + n)

/-- True where some listed field of one of these names is not 0. -/
def State.anyReg (s : State) (fs : List Fld) : Bool :=
  s.regs.any (fun kv => fs.any (fun f => decide (f.ctorIdx = kv.1 / 8388608)) && decide (kv.2 ≠ 0))

/-! ### Tables of units -/

def State.core (s : State) (u : Nat) : Core := tabGet {} u s.cores
def State.setCore (s : State) (u : Nat) (c : Core) : State := { s with cores := tabSet {} u c s.cores }
def State.link (s : State) (l : Nat) : Link := tabGet {} l s.links
def State.setLink (s : State) (l : Nat) (k : Link) : State := { s with links := tabSet {} l k s.links }
def State.tow (s : State) (e : Nat) : Tow := tabGet {} e s.tows
def State.setTow (s : State) (e : Nat) (t : Tow) : State := { s with tows := tabSet {} e t s.tows }
def State.part (s : State) (p : Nat) : Part := tabGet {} p s.host.parts
def State.setPart (s : State) (p : Nat) (x : Part) : State :=
  { s with host := { s.host with parts := tabSet {} p x s.host.parts } }

/-- What leaves the part. -/
def State.emit (s : State) (o : Out) : State := { s with out := s.out ++ [o] }

/-- A message put into flight. -/
def State.send (s : State) (m : Msg) : State := { s with net := s.net ++ [m] }

/-- A fresh tag for an operation that will be answered: 15 bits, the higher half of the 16-bit tags being those of items. -/
def State.fresh (s : State) : Nat × State := (s.nextTag % 32768, { s with nextTag := (s.nextTag + 1) % 32768 })

/-- The chip's own number (R34). -/
def State.chip (s : State) : Nat := s.rd .klkChipNum

/-- The number of chips of the system (R36). -/
def State.chips (s : State) : Nat := 8 * 2 ^ s.rd .klkTrayLog2

/-! ### The global status (R854) -/

/-- Records an event of Table 19-5: sets its bit and writes a log entry; an overwritten valid entry sets LOG_WRAP. -/
def State.gevent (s : State) (bit blk inst off src : Nat) : State :=
  let j := s.rd .kprGlogNext
  let wrap := s.reg .kprGlogValid 0 j
  let s := s.wr .kprGstatus (s.rd .kprGstatus ||| 2 ^ bit ||| (if wrap = 1 then 2 ^ Gs.logWrap else 0))
  let s := s.setReg .kprGlogEvent 0 j bit
  let s := s.setReg .kprGlogBlock 0 j blk
  let s := s.setReg .kprGlogInstance 0 j inst
  let s := s.setReg .kprGlogOffset 0 j off
  let s := s.setReg .kprGlogSource 0 j src
  let s := s.setReg .kprGlogEpoch 0 j s.pow.epoch
  let s := s.setReg .kprGlogValid 0 j 1
  s.wr .kprGlogNext (j + 1)

/-! ### Interrupts (Table 19-4, R852) -/

/-- The summary bits of Table 19-4. -/
def State.summary (s : State) : Nat :=
  b2n (s.anyReg [.kprGstatus])
  + 2 * b2n (s.anyReg [.weirClamped, .weirShortfall, .weirBreach, .weirPaceLost, .weirPolicyLoss, .weirMultiMaster])
  + 4 * b2n (s.anyReg [.bwrOver, .bwrOvd, .bwrLogWrap])
  + 8 * b2n (s.anyReg [.slcRefused, .slcOvf, .slcPoll, .slcTreeLost])
  + 16 * b2n (s.anyReg [.towErr, .towMissed])
  + 32 * b2n (s.anyReg [.mcUe])
  + 64 * b2n (s.anyReg [.linkCableErr, .linkStall, .linkQuar])
  + 128 * b2n (s.anyReg [.dbgHalted])
  + 256 * b2n (s.anyReg [.moveDone])
  + (s.env.intSticky &&& 0x600)
  + 2048 * b2n (s.anyReg [.kprRefused, .kprOffReady])
  + 4096 * b2n (s.anyReg [.fnCqStall])

/-- Sends the vector of every enabled source whose summary bit has risen since it last stood at 0 (R852). -/
def State.settle (s : State) : State :=
  let sm := s.summary
  let on := sm &&& s.rd .kprIntEn
  let keep := s.env.intLast &&& sm
  let rise := (List.range 13).filter (fun i => on.testBit i && !(keep.testBit i))
  { s with env := { s.env with intLast := keep ||| on },
           out := s.out ++ rise.map (fun i => Out.msix 16 (s.reg .kprIntVec 0 i)) }

/-- A meaning's answer: the next state, with the interrupt messages its effect causes. -/
def fin (s : State) : Host.Outcome State Fault Refusal := .next s.settle

/-- The answer of a command whose condition does not hold: nothing happens. -/
def stay (s : State) : Host.Outcome State Fault Refusal := .next s

/-! ### Error records (R787 to R795) -/

/-- The 64 bytes of a record (Table 17-4). -/
def ErrRec.toBytes (r : ErrRec) (chip : Nat) : Bytes :=
  Machine.toBytes 1 r.cls ++ Machine.toBytes 1 r.source ++ Machine.toBytes 2 r.unit ++ Machine.toBytes 1 chip
    ++ Machine.toBytes 1 (match r.part with | some p => p + 128 | none => 0)
    ++ Machine.toBytes 1 r.code ++ Machine.toBytes 1 r.action ++ Machine.toBytes 8 r.addr ++ Machine.toBytes 8 r.epoch
    ++ Machine.toBytes 4 r.count ++ Machine.toBytes 4 r.detail ++ Machine.toBytes 2 r.pc ++ Machine.toBytes 2 0
    ++ Machine.toBytes 4 r.seq ++ Machine.toBytes 2 r.stage ++ Machine.toBytes 2 r.flight ++ Machine.toBytes 20 0

/-- Whether two events merge into one record (R788). -/
def ErrRec.merges (a b : ErrRec) : Bool :=
  decide (a.cls = b.cls) && decide (a.source = b.source) && decide (a.unit = b.unit) && decide (a.code = b.code)
    && decide (a.epoch = b.epoch)

/-- Takes the oldest CORRECTED record out, and answers its slot. -/
def dropCorrected : List ErrRec → Option (Nat × List ErrRec)
  | [] => none
  | r :: t => if r.cls = 0 then some (r.slot, t) else
    match dropCorrected t with
    | some (n, t') => some (n, r :: t')
    | none => none

/-- The report of a written record: the PF's vector where its class is enabled, and MCTP for the classes of R795. -/
def State.report (s : State) (r : ErrRec) : State :=
  let s := if (s.rd .kprErrClassMask).testBit r.cls then s.emit (.msix 16 (s.rd .kprErrVector)) else s
  if 2 ≤ r.cls then s.emit (.mctpRecord (r.toBytes s.chip)) else s

/-- Writes one error record: merged with a record of its kind of this epoch (R788), else in the ring, replacing the oldest CORRECTED
record when the ring is full, else dropped (R793). A dropped record is numbered too, so that QUERY can count it (R794). -/
def State.errRecord (s : State) (r0 : ErrRec) : State :=
  let r := { r0 with epoch := s.pow.epoch }
  if s.errs.any (fun x => x.merges r) then
    { s with errs := s.errs.map (fun x => if x.merges r then { x with count := x.count + r.count } else x) }
  else
    let s1 := { s with errOrd := s.errOrd + 1 }
    let s1 := s1.count .kprErrCount 0 0 1
    if s.errs.length < 1024 then
      let h := s.rd .kprErrHead
      let s2 := { s1 with errs := s1.errs ++ [{ r with ord := s.errOrd, slot := h }] }
      (s2.wr .kprErrHead (h + 1)).report r
    else match dropCorrected s.errs with
      | some (n, l) => ({ s1 with errs := l ++ [{ r with ord := s.errOrd, slot := n }] }).report r
      | none => ({ s with errOrd := s.errOrd + 1 }).bump .kprErrDrop 0 0 1

/-! ### Fences and power states of cores -/

/-- A core's KPR_FENCE bit (R796, R797). The YZ2-KB block has no bit there and keeps its own fence. -/
def State.fenced (s : State) (u : Nat) : Bool := if u = 128 then s.kb.fenced else (s.rd .kprFenced).testBit u

/-- Sets or clears the fence of a core. -/
def State.setFenced (s : State) (u : Nat) (b : Bool) : State :=
  if u = 128 then { s with kb := { s.kb with fenced := b } }
  else s.wr .kprFenced (putBits (s.rd .kprFenced) u 1 (b2n b))

/-- A core island answers ISLAND_OFF: it is fenced, or in C2 or C3 (R51, R845). -/
def State.islandOff (s : State) (u : Nat) : Bool := s.fenced u || decide (2 ≤ (s.core u).cstate)

/-- The core's sequencer runs (CORE_STATE.RUN). -/
def State.runs (s : State) (u : Nat) : Bool := decide (s.reg .coreRun u 0 = 1)

/-- The quads of a partition, and the partition that owns a core: one that is not FREE (Table 15-8). -/
def State.partOf (s : State) (u : Nat) : Option Nat :=
  (List.range 16).find? (fun p => decide (s.reg .partState 0 p ≠ 0) && (s.reg .partQuads 0 p).testBit (u / 4))

/-- The cores of a partition, ascending. -/
def State.coresOf (s : State) (p : Nat) : List Nat :=
  (List.range 128).filter (fun u => (s.reg .partQuads 0 p).testBit (u / 4))

/-- A partition's FLIGHT (SLC_PART_n, R565). -/
def State.flightOf (s : State) (p : Nat) : Nat := s.reg .slcPartFlight 0 p

/-- The enabled partition whose FLIGHT matches (Table 13-4, R565). -/
def State.partOfFlight (s : State) (fl : Nat) : Option Nat :=
  (List.range 16).find? (fun p => decide (s.reg .slcPartEn 0 p = 1) && decide (s.reg .partState 0 p ≠ 0) && decide (s.flightOf p = fl))

/-- Words of a mask of a wide register. -/
def maskCores (m : Nat) : List Nat := onesOf 128 m

/-! ### What power asks of a core -/

/-- A core that is fenced, halted in debug mode, or enters C2 or C3 runs no ballast from then on (R82). -/
def State.dropBallast (s : State) (u : Nat) : State := { s with pow := { s.pow with ballast := tabSet 0 u 0 s.pow.ballast } }

/-- An island whose meter has used up the allowance of its sub-window issues no new work until the next one starts (R64). -/
def State.throttled (s : State) (i : Nat) : Bool :=
  match s.pow.meters.find? (fun x => decide (x.1 = i)) with
  | some x => decide (x.2.allow = 0)
  | none => false

/-! ### Counters and trace of a core -/

/-- The program counter. -/
def State.pc (s : State) (u : Nat) : Nat := s.reg .corePc u 0

/-- Adds to the performance counters that count an event (R816, Table 17-8). -/
def State.pmc (s : State) (u code n : Nat) : State :=
  (List.range 8).foldl (fun s i => if s.reg .dbgPmcSel u i = code then s.bump .dbgPmc u i n else s) s

/-- Adds a free number of cycles, at most `most`, to the counters that count one of the events `codes`, which last some of them (R816, log 22). -/
def State.pmcFree (s : State) (u : Nat) (codes : List Nat) (most : Nat) : State :=
  (List.range 8).foldl (fun s i =>
    let c := s.reg .dbgPmcSel u i
    if codes.contains c then s.bump .dbgPmc u i (Config.heldCycles u c (s.core u).cycles (s.reg .dbgPmc u i) % (most + 1)) else s) s

/-- A trace entry (R815, Table 17-7): recorded in debug mode where FILTER selects its kind; FILL stops when full. -/
def State.traceEv (s : State) (u kind arg data : Nat) : State :=
  if s.reg .dbgEn u 0 = 0 ∨ ¬ (s.reg .dbgFilter u 0).testBit kind then s
  else if s.reg .dbgFull u 0 = 1 ∧ s.reg .dbgWrap u 0 = 0 then s
  else
    let c := s.core u
    let j := s.reg .dbgTraceNext u 0
    let e := c.cycles % 2 ^ 32 + s.pc u * 2 ^ 32 + kind % 16 * 2 ^ 44 + arg % 65536 * 2 ^ 48 + data % 2 ^ 64 * 2 ^ 64
    let s := s.setCore u { c with trace := tabInsert j e (tabErase j c.trace) }
    let s := s.setReg .dbgTraceNext u 0 (j + 1)
    if j = 1023 ∧ s.reg .dbgWrap u 0 = 0 then s.setReg .dbgFull u 0 1 else s

end Sys2Proof.Machine
end

