-- ==== Sys2Proof/Machine/Regulate.lean ====
section
/-! DEFINITION. Bandwidth regulation between masters (11_bandwidth_regulation.md): ports, counting, urgency, DEMOTE and HOLD. -/

namespace Sys2Proof.Machine

/-- The classes of Table 11-1. -/
def Cls.host : Nat := 0
def Cls.linkrx : Nat := 1
def Cls.towdl : Nat := 2
def Cls.telem : Nat := 3
def Cls.core : Nat := 4
def Cls.mover : Nat := 5
def Cls.towbe : Nat := 6
def Cls.mgmt : Nat := 7

/-- The virtual channel of a message (Table 13-5). -/
def MsgOp.vc : MsgOp → Nat
  | .read => 0
  | .write => 0
  | .atomic => 0
  | .readData => 1
  | .complete => 1
  | .credit => 1
  | .nack => 1
  | .slcAck => 1
  | .flush => 1
  | .sop => 2
  | .waiter => 2
  | .wake => 2
  | .treeArrive => 2
  | .treeRelease => 2
  | .ledgerAdd => 3
  | .ledgerSettle => 3
  | .item => 4
  | .paceTime => 5
  | .rewrite => 5
  | .keeper => 5

/-- A request or answer whose payload carries an extra slot, because the header of Table 13-4 has no place for its length, SIGNED, CLEAR or
poison: an atomic or ledger operation, and a write that is not a whole number of 16-byte units. -/
def Msg.extra (m : Msg) : Bool :=
  match m.op with
  | .atomic => true
  | .ledgerAdd => true
  | .ledgerSettle => true
  | .write => decide (m.addr % 16 ≠ 0) || decide (m.data.length % 16 ≠ 0)
  | _ => false

/-- The bytes that follow a message's header. -/
def Msg.payload (m : Msg) : Bytes :=
  match m.op with
  | .sop => toBytes 8 m.arg
  | .waiter => toBytes 8 m.arg
  | .wake => toBytes 8 m.arg
  | .slcAck => toBytes 8 m.arg
  | .rewrite => toBytes 8 m.arg
  | .paceTime => toBytes 1 m.addr ++ toBytes 1 m.len ++ toBytes 1 m.arg ++ toBytes 1 m.code
  | _ => if m.extra then toBytes 2 m.len ++ toBytes 1 (bits m.code 8 2 + 4 * b2n m.poison) ++ toBytes 13 0 ++ m.data else m.data

/-- The slots of a message (R611): one header and 16 bytes of data each. -/
def Msg.slots (m : Msg) : Nat := 1 + ceilDiv m.payload.length 16

/-- The receiver of link `l` frees the slots of a message (R620). -/
def State.freeSlots (s : State) (m : Msg) : State :=
  if 24 ≤ m.link then s
  else
    let k := s.link m.link
    let j := 2 * m.op.vc + m.lane
    let n := min m.slots (tabGet 0 j k.held)
    s.setLink m.link { k with held := tabSet 0 j (tabGet 0 j k.held - n) k.held,
                              freed := tabSet 0 j ((tabGet 0 j k.freed + n) % 256) k.freed }

def State.bwPort (s : State) (c p : Nat) : BwPort := tabGet {} (256 * c + p) s.ms.ports
def State.setBwPort (s : State) (c p : Nat) (x : BwPort) : State :=
  { s with ms := { s.ms with ports := tabSet {} (256 * c + p) x s.ms.ports } }

/-- A class field of BWR_CLASS_c, and the value it replaced while its first window lasts (R554). -/
def State.clsNow (s : State) (f : Fld) (c : Nat) : Nat := s.reg f 0 c
def State.clsOld (s : State) (f : Fld) (c : Nat) : Nat := tabGet (s.reg f 0 c) (f.key 0 c) s.old

/-- BUDGET, PRIO and MODE as they apply in the present window (R554). -/
def State.budget (s : State) (c : Nat) : Nat := min (s.clsNow .classBudget c) (s.clsOld .classBudget c)
def State.prio (s : State) (c : Nat) : Nat := min (s.clsNow .classPrio c) (s.clsOld .classPrio c)
def State.holds (s : State) (c : Nat) : Bool := decide (s.clsNow .classMode c = 1) || decide (s.clsOld .classMode c = 1)

/-- The class is unregulated: its BUDGET is 0 (R538). -/
def State.unregulated (s : State) (c : Nat) : Bool := decide (s.budget c = 0)

/-- The 64-byte lines that [a, a + n) names (R534). -/
def lineCount (a n : Nat) : Nat := if n = 0 then 0 else (a + n - 1) / 64 - a / 64 + 1

/-- The size of the buffer behind a real-time port's urgency, in bytes (Table 11-1). -/
def bufBytes (c : Nat) : Nat := if c = 0 then 32768 else if c = 1 then 16384 else 4096

/-- A port's fill in sixteenths (Table 11-1): of the host block's ingress buffer, which holds the requests not yet injected; of the link's receive
buffer; the elapsed fraction of a Towpath job's deadline; or of the record buffer. -/
def State.fill16 (s : State) (c p : Nat) (x : BwPort) : Nat :=
  if c = 0 then 64 * x.late * 16 / bufBytes c
  else if c = 1 then 16 * sumOf (s.link p).held (fun h => h.2) * 16 / bufBytes c
  else if c = 2 then x.fill
  else 16 * s.ms.telem.length * 16 / bufBytes c

/-- The highest level whose threshold `f16` has reached. -/
def State.level (s : State) (c f16 : Nat) : Nat :=
  if s.reg .classCritAt 0 c ≤ f16 then 3
  else if s.reg .classHighAt 0 c ≤ f16 then 2
  else if s.reg .classMidAt 0 c ≤ f16 then 1 else 0

/-- Urgency rises to the level reached and falls with one sixteenth of hysteresis (R539, R540); other classes carry LOW (R541). -/
def State.newUrg (s : State) (c p : Nat) (x : BwPort) : Nat :=
  if 4 ≤ c then 0
  else
    let up := s.level c (s.fill16 c p x)
    let dn := s.level c (s.fill16 c p x + 1)
    if x.urg < up then up else if dn < x.urg then dn else x.urg

/-- The available budget of the window (R543). -/
def State.avail (s : State) (c : Nat) (x : BwPort) : Nat := s.budget c - x.debt

/-- A request of `n` lines would take the port over budget, or it is over budget already (R543). -/
def State.overBy (s : State) (c n : Nat) (x : BwPort) : Bool := !(s.unregulated c) && decide (s.avail c x < x.count + n)

/-- The port may inject a request of `n` lines now (R545, R547, R548). -/
def State.mayInject (s : State) (c n : Nat) (x : BwPort) : Bool :=
  if !(s.overBy c n x) || !(s.holds c) then true
  else decide (x.urg = 3) && !x.cut && decide (x.overd + (x.count + n - max x.count (s.avail c x)) ≤ s.budget c)

/-- The port counts `n` lines as injected (R535): beyond the available budget under HOLD they are overdraft (R547), and overdraft that
reaches BUDGET cuts the port off (R548). -/
def State.countNow (s : State) (c p n : Nat) : State :=
  let x := s.bwPort c p
  let ov := s.overBy c n x
  let extra := if ov && s.holds c then x.count + n - max x.count (s.avail c x) else 0
  let s := if ov then s.wr .bwrOver (s.rd .bwrOver ||| 2 ^ c) else s
  let od := x.overd + extra
  s.setBwPort c p { x with count := x.count + n, overd := od, cut := x.cut || (decide (extra ≠ 0) && decide (s.budget c ≤ od)) }

/-- The lines that a tier mover's port injects in a window at 100 GB/s (Table 10-7): 100,000 bytes read and as many written. -/
def moverRate : Nat := 3125

/-- How many of `n` lines the port may inject now (R545, R547, R548). -/
def State.room (s : State) (c n : Nat) (x : BwPort) : Nat :=
  if s.unregulated c || !(s.holds c) then n
  else min n ((s.avail c x - x.count) + (if decide (x.urg = 3) && !x.cut then s.budget c - x.overd else 0))

/-- The port injects what it may of the lines of accesses that the model has made in one step, with its urgency as it now stands (R539). -/
def State.drainLate (s : State) (c p : Nat) : State :=
  let x := s.bwPort c p
  let x := { x with urg := s.newUrg c p x }
  let want := if c = Cls.mover then min x.late (moverRate - x.count) else x.late
  let k := s.room c want x
  let s := if k < want then s.wr .bwrOver (s.rd .bwrOver ||| 2 ^ c) else s
  let x := { x with late := x.late - k, cut := x.cut || (decide (k < want) && decide (x.urg = 3)) }
  (s.setBwPort c p { x with urg := s.newUrg c p x }).countNow c p k

/-- A unit whose access of `n` lines the model makes in one step gives its port the lines (R534). What the port may not inject in this window it
injects in later ones (R535, R545), and the unit makes no further access before it has (`State.portOpen`). -/
def State.countLines (s : State) (c p n : Nat) : State :=
  let x := s.bwPort c p
  (s.setBwPort c p { x with late := x.late + n }).drainLate c p

/-- Injects one message from a port: it carries the port's urgency, and the mark of a demoted request (R541, R544). -/
def State.injectNow (s : State) (c p : Nat) (m : Msg) : State :=
  let x := s.bwPort c p
  let n := lineCount m.addr m.len
  let dem := s.overBy c n x && !(s.holds c)
  let s := s.countNow c p n
  (s.freeSlots m).send { m with cls := c, port := p, urg := if c < 4 then x.urg else 0, demoted := dem, link := 24 }

/-- Injects the held requests of a port in order while it may (R545); `n` bounds the number. -/
def State.drainPort (s : State) (c p : Nat) : Nat → State
  | 0 => s
  | n + 1 =>
    let x := s.bwPort c p
    let x := { x with urg := s.newUrg c p x }
    let s := s.setBwPort c p x
    match x.held with
    | [] => s
    | m :: t =>
      if s.mayInject c (lineCount m.addr m.len) x then
        State.drainPort ((s.setBwPort c p { x with held := t }).injectNow c p m) c p n
      else
        let s := s.wr .bwrOver (s.rd .bwrOver ||| 2 ^ c)
        s.setBwPort c p { x with cut := x.cut || decide (x.urg = 3) }

/-- A master gives its port a request. -/
def State.inject (s : State) (c p : Nat) (m : Msg) : State :=
  let x := s.bwPort c p
  (s.setBwPort c p { x with held := x.held ++ [m] }).drainPort c p (x.held.length + 1)

/-- A unit whose accesses the model makes in one step may make its next one: the port has injected what went before and is not held. -/
def State.portOpen (s : State) (c p : Nat) : Bool :=
  let x := s.bwPort c p
  x.held.isEmpty && decide (x.late = 0) && s.mayInject c 1 { x with urg := s.newUrg c p x }

/-! ### The window boundary -/

/-- One record of the overdraft log, with the class's OVD bit (R550). -/
def State.ovdRecord (s : State) (w c p lines : Nat) : State :=
  let j := s.rd .ovdNext
  let s := if s.reg .ovdLogValid 0 j = 1 then s.wr .bwrLogWrap 1 else s
  let s := s.wr .bwrOvd (s.rd .bwrOvd ||| 2 ^ c)
  let s := s.setReg .ovdLogWindow 0 j w
  let s := s.setReg .ovdLogClass 0 j c
  let s := s.setReg .ovdLogPort 0 j p
  let s := s.setReg .ovdLogLines 0 j lines
  let s := s.setReg .ovdLogValid 0 j 1
  s.wr .ovdNext (j + 1)

/-- The end of a window at every port (R537, R549, R550). -/
def State.closePorts (s : State) : State :=
  let w := s.rd .bwrWindow
  let s := (List.range 8).foldl (fun s c =>
    let lines := sumOf (s.ms.ports.filter (fun x => decide (x.1 / 256 = c))) (fun x => x.2.count)
    s.setReg .bwrHist 0 (64 * c + w % 64) (min lines (2 ^ 32 - 1))) s
  let s := (s.ms.ports.filter (fun x => decide (0 < x.2.overd))).foldl (fun s x => s.ovdRecord w (x.1 / 256) (x.1 % 256) x.2.overd) s
  { s with ms := { s.ms with ports := s.ms.ports.foldl (fun t x =>
      tabSet {} x.1 { x.2 with count := 0, debt := x.2.overd, overd := 0, cut := false } t) [] } }

/-- Released ports inject what they hold (R545). -/
def State.drainPorts (s : State) : State :=
  s.ms.ports.foldl (fun t x => (t.drainLate (x.1 / 256) (x.1 % 256)).drainPort (x.1 / 256) (x.1 % 256) (x.2.held.length + 1)) s

end Sys2Proof.Machine
end

