-- ==== Sys2Proof/Machine/Power.lean ====
section
/-! DEFINITION. The Reservoir, the Weir, ballast and fleet pacing (02_power_and_fleet_pacing.md). -/

namespace Sys2Proof.Machine

/-- Records the loser of a conflict of Table 02-4 (R100). -/
def State.policyLoss (s : State) (code : Nat) (part : Option Nat) : State :=
  let s := s.wr .weirPolicyLoss 1
  let s := s.wr .rsvLossCode code
  let s := s.wr .rsvLossPartition (part.getD 0)
  let s := s.wr .rsvLossPartValid (b2n part.isSome)
  s.bump .rsvLossCount 0 0 1

/-- A breach event (R75, R87): BREACH is set, an open ramp closes, and the ramp-close level is taken anew. -/
def State.breach (s : State) : State :=
  let s := s.wr .weirBreach 1
  let s := s.wr .weirRampOpen 0
  { s with pow := { s.pow with closeWait := true } }

/-- One draw unit in quarters of a milliwatt (R54): 0.25 A times the core rail in millivolts. -/
def State.unit4 (s : State) : Nat := s.rd .rsvVddMv

/-- The island kind of Table 19-6 for an island number of Table 02-10. -/
def islandKind (i : Nat) : Nat :=
  if i < 128 then 0 else if i < 188 then 1 else if i < 208 then 2 else if i < 232 then 3 else if i < 233 then 4 else 5

/-- The draw of a level, in sixteenths of a draw unit. -/
def State.draw (s : State) (i l : Nat) : Nat := s.reg .kprLevelDraw 0 (16 * islandKind i + l)

/-- The minimum grant of an island: the draw of its level 0 at full activity (R58, R851), in whole units rounded up. -/
def State.minGrant (s : State) (i : Nat) : Nat := ceilDiv (s.draw i 0) 16

/-- An island that the Reservoir serves (R59): not fenced, and not a core in C2 or C3. -/
def State.requesting (s : State) (i : Nat) : Bool := decide (i < 237) && (decide (128 ≤ i) || !(s.islandOff i))

/-- The value that a staged field takes at the next boundary: the captured one where GO has captured one (R775). -/
def State.coming (s : State) (f : Fld) (j : Nat) : Nat := tabGet (s.reg f 0 j) (f.key 0 j) s.capt

/-- The value of a slope or cap for the next epoch's computation: the more restrictive, that is the lower, of the value in effect and the
captured value (R103, R777). Weights and other fields take `State.coming` at once. -/
def State.tight (s : State) (f : Fld) : Nat := min (s.rd f) (s.coming f 0)

/-- A partition's frequency cap: the lower of the old and new in the first epoch after COMMIT (R777). -/
def State.fcap (s : State) (p : Nat) : Nat :=
  min (s.reg .partFcap 0 p) (tabGet (s.reg .partFcap 0 p) (Fld.key .partFcap 0 p) s.old)

/-! ### Grants -/

/-- Shares `avail` units in equal increments among needs (R59 "equal increments up to each core's request"), in rounds; `fuel` bounds the
rounds. Each item is (island, need, given). -/
def shareEqual : Nat → Nat → List (Nat × Nat × Nat) → List (Nat × Nat × Nat)
  | 0, _, l => l
  | fuel + 1, avail, l =>
    let open_ := (l.filter (fun x => decide (x.2.2 < x.2.1))).length
    if avail = 0 ∨ open_ = 0 then l
    else
      let q := avail / open_
      if q = 0 then
        -- the units that do not divide go one each to the lowest numbers
        (l.foldl (fun (acc : List (Nat × Nat × Nat) × Nat) x =>
          if x.2.2 < x.2.1 ∧ 0 < acc.2 then (acc.1 ++ [(x.1, x.2.1, x.2.2 + 1)], acc.2 - 1) else (acc.1 ++ [x], acc.2)) ([], avail)).1
      else
        let l' := l.map (fun x => (x.1, x.2.1, min x.2.1 (x.2.2 + q)))
        let used := sumOf l' (fun x => x.2.2) - sumOf l (fun x => x.2.2)
        shareEqual fuel (avail - used) l'

/-- Shares `avail` among partitions in proportion to weight, an unused share being shared again (R59, R61). Each item is
(partition, weight, need, given). -/
def shareWeighted : Nat → Nat → List (Nat × Nat × Nat × Nat) → List (Nat × Nat × Nat × Nat)
  | 0, _, l => l
  | fuel + 1, avail, l =>
    let w := sumOf (l.filter (fun x => decide (x.2.2.2 < x.2.2.1))) (fun x => x.2.1)
    if avail = 0 ∨ w = 0 then l
    else
      let l' := l.map (fun x => if x.2.2.2 < x.2.2.1 then (x.1, x.2.1, x.2.2.1, min x.2.2.1 (x.2.2.2 + avail * x.2.1 / w)) else x)
      let used := sumOf l' (fun x => x.2.2.2) - sumOf l (fun x => x.2.2.2)
      if used = 0 then l else shareWeighted fuel (avail - used) l'

/-- Serves infrastructure islands up to their requests, in ascending number (R60). -/
def serveInfra : Nat → List (Nat × Nat) → List (Nat × Nat)
  | _, [] => []
  | avail, (i, need) :: t => (i, min need avail) :: serveInfra (avail - min need avail) t

/-- Every partition is FREE or STOPPED. -/
def State.partsDown (s : State) : Bool :=
  (List.range 16).all (fun p => decide (s.reg .partState 0 p = 0) || decide (s.reg .partState 0 p = 3))

/-- The chip ramps down to a floor: for a CHIP reset (R76), an accepted STANDBY request, or an OFF request whose partitions are down (R769, R772). -/
def State.rampsDown (s : State) : Bool := s.env.resetWait.isSome || s.env.standbyIn || (s.env.offIn && s.partsDown)

/-- The power that islands leave when those of `hit` run at their MIN and the others at their present work grants, in quarters of a milliwatt. -/
def State.floorLeft (s : State) (hit : Nat → Bool) : Nat :=
  4 * s.pow.statMw + s.unit4 * sumOf (List.range 237) (fun i => if hit i then s.minGrant i else tabGet 0 i s.pow.grant)

/-- Power has come down to a floor, which ballast may exceed by less than a draw unit (R76). -/
def State.atFloor (s : State) (f : Nat) : Bool := decide (s.pow.p4 < f + s.unit4)

/-- The step to the STANDBY level would be at most 120 W (R77, R769). DESIGN CHOICE (log 104): that level, which the specification does not
state, is P_STATIC and the MIN of every island that still requests. -/
def State.nearStandby (s : State) : Bool :=
  decide (s.pow.p4 ≤ 4 * s.pow.statMw + s.unit4 * sumOf ((List.range 237).filter (fun i => s.requesting i)) (fun i => s.minGrant i) + 480000)

/-- What an island asks for: its latest request (R57), no more than its MIN while the chip ramps down to a floor, and cut for a core to what the level of its partition's FCAP can draw at the island's last
activity, whose excess returns to the pool (Table 02-4 code 0x2). DESIGN CHOICE (log 96): an island that has sent no request since reset has
asked for 0 units at activity 0, for the specification gives it no previous request. -/
def State.want (s : State) (i : Nat) : Nat :=
  let q := tabGet (⟨0, 0⟩ : PowReq) i s.pow.reqs
  if s.rampsDown then min q.units (s.minGrant i)
  else match (if i < 128 then s.partOf i else none) with
  | some p => let c := min (s.reg .partFcap 0 p) (s.coming .partFcap p)
              if c = 15 then q.units else min q.units (max (ceilDiv (s.draw i c * q.act) (16 * 255)) (s.minGrant i))
  | none => q.units

/-- The work grants for a grant limit (R59 to R61, R720): (island, units). -/
def State.grantAll (s : State) (limit : Nat) : List (Nat × Nat) :=
  let isl := (List.range 237).filter (fun i => s.requesting i && decide (0 < s.want i))
  let mins := isl.map (fun i => (i, min (s.want i) (s.minGrant i)))
  let avail := limit - sumOf mins (fun x => x.2)
  let infra := serveInfra avail ((mins.filter (fun x => decide (128 ≤ x.1))).map (fun x => (x.1, s.want x.1 - x.2)))
  let avail := avail - sumOf infra (fun x => x.2)
  let coresMin := mins.filter (fun x => decide (x.1 < 128))
  let need (p : Nat) : Nat := sumOf (coresMin.filter (fun x => decide (s.partOf x.1 = some p))) (fun x => s.want x.1 - x.2)
  let parts := shareWeighted 17 avail ((List.range 16).map (fun p => (p, s.coming .rsvShareWeight p, need p, 0)))
  let extra := parts.flatMap (fun pp =>
    let mine := (coresMin.filter (fun x => decide (s.partOf x.1 = some pp.1))).map (fun x => (x.1, s.want x.1 - x.2, 0))
    let first := shareEqual 129 pp.2.2.2 (mine.filter (fun x => s.pow.urgent.contains x.1))
    let rest := shareEqual 129 (pp.2.2.2 - sumOf first (fun x => x.2.2)) (mine.filter (fun x => !(s.pow.urgent.contains x.1)))
    (first ++ rest).map (fun x => (x.1, x.2.2)))
  mins.map (fun x => (x.1, x.2 + sumOf ((infra ++ extra).filter (fun y => decide (y.1 = x.1))) (fun y => y.2)))

/-- Inserts (key, value) pairs sorted by value. DESIGN CHOICE (log 97): of cores whose non-ballast grants are equal, R78 names no order; the
lower core number comes first. -/
def insByVal (x : Nat × Nat) : List (Nat × Nat) → List (Nat × Nat)
  | [] => [x]
  | y :: t => if x.2 < y.2 ∨ (x.2 = y.2 ∧ x.1 ≤ y.1) then x :: y :: t else y :: insByVal x t

/-- A core that ballast may use: in C0, not fenced, and not halted in debug mode (R78, R82), nor on the one instruction of a STEP. -/
def State.ballastable (s : State) (u : Nat) : Bool :=
  decide ((s.core u).cstate = 0) && !(s.fenced u) && decide (s.reg .dbgHalted u 0 = 0) && !(s.core u).stepOne

/-- Hands ballast out to cores in order, each at most the fused maximum (R78). -/
def giveBallast (cap : Nat) : Nat → List (Nat × Nat) → List (Nat × Nat)
  | _, [] => []
  | n, (u, _) :: t => if n = 0 then [] else (u, min n cap) :: giveBallast cap (n - min n cap) t

/-- Listed entries as a sparse table. -/
def toTab (l : List (Nat × Nat)) : List (Nat × Nat) := l.foldl (fun t x => tabSet 0 x.1 x.2 t) []

/-- A power that steps toward another by at most `d` (R98). -/
def toward (x y d : Nat) : Nat := if x < y then min y (x + d) else max y (x - d)

/-- P_STATIC moves toward what RSV_STATIC holds by at most 4 mW in an epoch, which is 2 W per millisecond (R98). -/
def State.staticStep (s : State) : State := { s with pow := { s.pow with statMw := toward s.pow.statMw (s.rd .rsvPStaticMw) 4 } }

/-- The level from which the Weir moves on its way down: P of the epoch in progress, or the floor itself where ballast held P at the first
whole unit above it. DEDUCED (log 98): R54 makes P a whole number of units, and Worked case 02-2 has the floor fall by 100 mW in every epoch
at 200 mW a unit, so the part of a unit that rounding gave back is carried. -/
def State.downBase (s : State) : Nat :=
  if !s.pow.ballNext.isEmpty && decide (s.pow.floor4 ≤ s.pow.p4) && decide (s.pow.p4 < s.pow.floor4 + s.unit4) then s.pow.floor4 else s.pow.p4

/-- The same on the way up: the ceiling itself where it held P at the last whole unit below it (log 98). -/
def State.upBase (s : State) : Nat :=
  if decide (s.pow.p4 ≤ s.pow.ceil4) && decide (s.pow.ceil4 < s.pow.p4 + s.unit4)
    && (decide (s.pow.ceil4 < s.pow.demand4) || decide (s.pow.floor4 = s.pow.ceil4)) then s.pow.ceil4 else s.pow.p4

/-- The Weir ceiling of the next epoch (R70, R71). -/
def State.ceilNext (s : State) : Nat :=
  if s.rd .weirRampOpen = 1 then s.upBase + 8 * s.tight .weirUpWMs else max s.pow.p4 (s.pow.close4 + 4000 * s.coming .weirFreeW 0)

/-- The Weir floor of the next epoch (R70, R73); an accepted CHIP reset ends every partition's activity (log 103). DESIGN CHOICE (log 99): where MIN_W lies above the ceiling, R72 and R73 cannot both hold;
the floor is cut to the ceiling, and so lies below MIN_W, until the ceiling has risen. -/
def State.floorNext (s : State) : Nat :=
  let active := s.env.resetWait.isNone && (List.range 16).any (fun p => decide (s.reg .partState 0 p = 1))
  min s.ceilNext (max (s.downBase - 8 * s.tight .weirDownWMs) (if active then 4000 * s.coming .weirMinW 0 else 0))

/-- The grant limit of the next epoch, in whole units (R68, R69, R99). -/
def State.grantLimit (s : State) : Nat :=
  let p4 := s.pow.p4
  let sus4 := 4000 * s.tight .rsvSustainW
  let d := ((p4 : Int) - (sus4 : Int)).natAbs
  let rich := decide (d * d < s.pow.account * 16 * s.tight .weirDownWMs)
  let cap4 := if rich then 4000 * s.tight .rsvPeakW else max sus4 (s.downBase - 8 * s.tight .weirDownWMs)
  (min cap4 (min s.ceilNext (s.pow.thermCap4.getD cap4)) - 4 * s.pow.statMw) / s.unit4

/-- The computation of Table 02-1 step 4 (R59, R68 to R73, R78, R83, R99): grants and ballast of the next epoch. Ballast lifts P to the first
whole unit at or above the floor, but never above the ceiling (R72). -/
def State.compute (s : State) : State :=
  let u4 := s.unit4
  let st4 := 4 * s.pow.statMw
  let isl := (List.range 237).filter (fun i => s.requesting i)
  let heldMin := s.pow.heldMin
  let work := if heldMin then isl.map (fun i => (i, s.minGrant i)) else s.grantAll s.grantLimit
  let g := sumOf work (fun x => x.2)
  let floorUnits := min (ceilDiv (s.floorNext - st4) u4) ((s.ceilNext - st4) / u4)
  let lack := floorUnits - g
  let order := ((List.range 128).filter (fun u => s.ballastable u)).foldl
    (fun l u => insByVal (u, tabGet 0 u work) l) []
  let bal := if heldMin then [] else giveBallast (s.rd .kprBallastMax) lack order
  let b := sumOf bal (fun x => x.2)
  let short := decide (b < lack) && !heldMin
  let s1 := if short then s.wr .weirShortfall 1 else s
  { s1 with pow := { s.pow with
      grantNext := toTab work
      ballNext := toTab bal
      short := short
      p4Next := st4 + u4 * (g + b)
      demand4 := st4 + u4 * sumOf isl (fun i => s.want i)
      ceil4 := s.ceilNext
      floor4 := s.floorNext } }

/-- The partitions whose FCAP cuts a request of one of their cores lose to it (Table 02-4 code 0x2). -/
def State.fcapLoss (s : State) : State :=
  let cut := ((List.range 128).filter (fun u => s.requesting u && decide (s.want u < (tabGet (⟨0, 0⟩ : PowReq) u s.pow.reqs).units))).filterMap
    (fun u => s.partOf u)
  ((List.range 16).filter (fun p => cut.contains p)).foldl (fun s p => s.policyLoss 2 (some p)) s

/-- The close of the request window (R57, Table 02-1 steps 3 and 4): P_STATIC steps (R98), and the next epoch is computed. The band of the
epoch in progress is kept until its end for a computation that COMMIT repeats. -/
def State.closeWindow (s : State) : State :=
  let s := s.staticStep
  let s := { s with pow := { s.pow with band := (s.pow.ceil4, s.pow.floor4, s.pow.demand4, s.pow.ballNext) } }
  let s := s.compute.fcapLoss
  { s with pow := { s.pow with closed := true, recv := [] } }

/-- COMMIT after the window's close: the next epoch is the first under the captured values, so it is computed again with them (R103, R777). -/
def State.recompute (s : State) : State :=
  if s.pow.closed then
    ({ s with pow := { s.pow with ceil4 := s.pow.band.1, floor4 := s.pow.band.2.1, demand4 := s.pow.band.2.2.1, ballNext := s.pow.band.2.2.2 } }).compute
  else s

/-- REQUEST_WINDOW_CLOSE (R57): once in each epoch. -/
def execRequestWindowClose (s : State) : Host.Outcome State Fault Refusal :=
  if s.pow.closed then stay s else fin s.closeWindow

/-- POWER_REQUEST (R55, R57, R102, R108): accepted up to Reservoir cycle 499; an unassigned island number is discarded. -/
def execPowerRequest (w : BitVec 32) (cycle : Nat) (s : State) : Host.Outcome State Fault Refusal :=
  let i := bits w.toNat 0 8
  if s.pow.closed || decide (499 < cycle) || decide (236 < i) then stay s
  else fin { s with pow := { s.pow with reqs := tabSet ⟨0, 0⟩ i ⟨bits w.toNat 8 12, bits w.toNat 20 8⟩ s.pow.reqs } }

/-- GRANT_RECEIVE (R58, R62): an island's grant for the next epoch reaches it. -/
def execGrantReceive (i : Nat) (s : State) : Host.Outcome State Fault Refusal :=
  if s.pow.closed && decide (i < 237) then fin { s with pow := { s.pow with recv := setAdd i s.pow.recv } } else stay s

/-! ### The epoch boundary -/

/-- The highest level whose full-activity draw, scaled by the island's last activity, does not exceed a grant (R62), at most the
partition's frequency cap (Table 02-4 code 0x2). `grant` holds the ballast units too (R871). Draws are in sixteenths of a unit and activity in 1/255. -/
def State.pickLevel (s : State) (i grant : Nat) : Nat :=
  let act := (tabGet (⟨0, 0⟩ : PowReq) i s.pow.reqs).act
  let ok := (List.range 16).filter (fun l => decide (s.draw i l * act ≤ 16 * 255 * grant))
  let l := ok.getLast?.getD 0
  match (if i < 128 then s.partOf i else none) with
  | some p => min l (s.fcap p)
  | none => l

/-- Each requesting island adopts its grant, or its minimum when none came (R58), and its level (R62); one that has had no grant since
its reset stays at level 0 (R908). A core takes the ballast units of its grant where it may still run ballast (R82). -/
def State.adopt (s : State) : State :=
  let isl := (List.range 237).filter (fun i => s.requesting i)
  let got := isl.filter (fun i => s.pow.recv.contains i)
  let granted := got.foldl (fun l i => setAdd i l) s.pow.granted
  let gr := isl.map (fun i => (i, if s.pow.recv.contains i then tabGet 0 i s.pow.grantNext else s.minGrant i))
  let bal := s.pow.ballNext.filter (fun x => s.pow.recv.contains x.1 && s.ballastable x.1)
  let lv := gr.map (fun x => (x.1, if granted.contains x.1 && !s.pow.heldMin then s.pickLevel x.1 (x.2 + tabGet 0 x.1 bal) else 0))
  { s with pow := { s.pow with
      granted := granted.filter (fun i => s.requesting i)
      grant := toTab gr
      ballast := bal
      level := toTab lv
      meters := [] } }

/-- What a core's counters and trace note at an epoch boundary: the cycles of the ballast that it ran (event 0x0C, a free number of the at most 3,800
of an epoch), and a change of its grant's level (Table 17-7 kind 7). `was` holds the grants of the epoch that ends. -/
def State.noteEpoch (s : State) (was : Pow) : State :=
  (List.range 128).foldl (fun s u =>
    let s := if tabGet 0 u was.ballast = 0 then s else s.pmcFree u [0xC] 3800
    let l := tabGet 0 u s.pow.level
    if l = tabGet 0 u was.level then s else s.traceEv u 7 l s.pow.epoch) s

/-- A reset reaches the islands of `hit`: they run at level 0 until the next grant that they receive takes effect (R908). -/
def State.ungrant (s : State) (hit : Nat → Bool) : State :=
  { s with pow := { s.pow with granted := s.pow.granted.filter (fun i => !(hit i)), level := s.pow.level.filter (fun x => !(hit x.1)) } }

/-- The chip's slot (R88). -/
def State.slot (s : State) : Nat :=
  (s.pow.slotBase + s.chip * s.rd .weirStride + s.rd .weirOffset) % max 1 s.pow.slotCount

/-- Copies captured values into effect for the fields that `pick` names by key, keeping the values they replace (R775, R777). -/
def State.takeCaptured (s : State) (pick : Nat → Bool) : State :=
  let now := s.capt.filter (fun kv => pick kv.1)
  let oldv := now.map (fun kv => (kv.1, (match s.regs.find? (fun r => decide (r.1 = kv.1)) with
    | some r => r.2
    | none => resetVal s.fuses (((Blk.fields .rsv ++ Blk.fields .weir ++ Blk.fields .bwr ++ Blk.fields .part).find?
        (fun f => decide (f.ctorIdx = kv.1 / 8388608))).getD .rsvPeakW) (kv.1 % 32768))))
  let fields := Blk.fields .rsv ++ Blk.fields .weir ++ Blk.fields .bwr ++ Blk.fields .part
  let put (s : State) (kv : Nat × Nat) : State :=
    match fields.find? (fun f => decide (f.ctorIdx = kv.1 / 8388608)) with
    | some f => s.setReg f (kv.1 / 32768 % 256) (kv.1 % 32768) kv.2
    | none => s
  let s := now.foldl put s
  { s with capt := s.capt.filter (fun kv => !(pick kv.1)),
           pend := s.pend.filter (fun kv => !(now.any (fun n => decide (n.1 = kv.1) && decide (n.2 = kv.2)))),
           old := s.old.filter (fun kv => !(pick kv.1)) ++ oldv }

/-- A pacing field that takes effect at an epoch boundary shows in SRC_IN_USE, the source that PACE_SRC now names, and in SLOT_NOW (R88). -/
def State.pacingTaken (s : State) (src0 slot0 : Nat) : State :=
  let s := if s.rd .weirPaceSrc ≠ src0 then s.wr .weirSrcInUse (s.rd .weirPaceSrc) else s
  if s.slot ≠ slot0 then s.wr .weirSlotNow s.slot else s

/-- A key of a BWR field. -/
def isBwrKey (k : Nat) : Bool := (Blk.fields .bwr).any (fun f => decide (f.ctorIdx = k / 8388608))

/-- GO reads 0 once every captured value is in effect (R775); source 9 of Table 19-4 then rises. -/
def State.commitDone (s : State) : State :=
  if decide (s.rd .kprCommitGo = 1) && s.capt.isEmpty then
    let s := (s.wr .kprCommitGo 0).wr .kprCommitEpoch s.pow.epoch
    { s with env := { s.env with intSticky := s.env.intSticky ||| 0x200 } }
  else s

/-- The telemetry record of R96: of the epoch that begins, with its own grants, ceiling and floor. DESIGN CHOICE (log 100): byte 15, the
current slot, is 0 while no pacing cycle runs, which R96 does not state. -/
def State.telemRecord (s : State) : Bytes :=
  let g := sumOf s.pow.grantNext (fun x => x.2)
  let b := sumOf s.pow.ballNext (fun x => x.2)
  let held := s.pow.overNow && decide (s.rd .weirRampOpen = 0)
  toBytes 4 s.pow.epoch ++ toBytes 2 (g + b) ++ toBytes 2 b ++ toBytes 3 (s.pow.ceil4 / 4) ++ toBytes 3 (s.pow.floor4 / 4)
    ++ toBytes 1 (s.rd .weirRampOpen + 2 * b2n held + 4 * b2n s.pow.short + 8 * b2n s.pow.thermCap4.isSome)
    ++ toBytes 1 ((s.pow.pacePos.getD 0) / max 1 s.pow.slotWidth)

/-- Writes bytes of device memory without any check: the engines inside the part use it after theirs. -/
def Memory.putBytes (m : Memory) : Nat → Bytes → Memory
  | _, [] => m
  | a, b :: t => Memory.putBytes { m with cells := tabSet 0 a b m.cells } (a + 1) t

/-- The record of an epoch enters the record buffer of the TELEM port (R96, Table 11-1), with its place in the ring (R855); it is lost and
counted where the buffer of 256 records is full or its write fails (R856). -/
def State.telemetry (s : State) (ok : Bool) : State :=
  if s.rd .kprTelemEn = 0 then s
  else if !ok || decide (256 ≤ s.ms.telem.length) then s.bump .kprTelemLost 0 0 1
  else
    let j := s.rd .kprTelemTail + s.ms.telem.length
    let a := 64 * s.rd .kprTelemBase + 16 * (j % 2 ^ s.rd .kprTelemSizeLog2)
    let host := decide (s.rd .kprTelemLoc = 0)
    { s with ms := { s.ms with telem := s.ms.telem ++ [⟨host, if host then a else a % 2 ^ 40, s.telemRecord⟩] } }

/-- The cap of R99 against the latest junction reading: it engages at THROTTLE_C and is released below THROTTLE_C − 3. -/
def State.thermalCap (s : State) : State :=
  if s.rd .weirThrottleC ≤ s.env.tempC then { s with pow := { s.pow with thermCap4 := some (s.pow.thermCap4.getD s.pow.p4) } }
  else if s.env.tempC < s.rd .weirThrottleC - 3 then { s with pow := { s.pow with thermCap4 := none } }
  else s

/-- A junction temperature is read. -/
def State.heat (s : State) (tempC : Nat) : State := ({ s with env := { s.env with tempC := tempC } }).thermalCap

/-- The thermal cap of the next epoch (R99): it descends along the down slope while the junction is hot. -/
def State.thermalStep (s : State) : State :=
  let s := s.thermalCap
  match s.pow.thermCap4 with
  | some t => { s with pow := { s.pow with thermCap4 := some (min t s.pow.p4 - 8 * s.rd .weirDownWMs) } }
  | none => s

/-- The pacing position at an epoch boundary (R89): slot 0 begins at the first boundary at or after the mark. -/
def Pow.paceStep (p : Pow) : Pow :=
  if p.paceMark then { p with pacePos := some 0, paceMark := false }
  else match p.pacePos with
    | some n => { p with pacePos := if n + 1 < p.slotCount * p.slotWidth then some (n + 1) else none }
    | none => p

/-- A partition has work: a task of one of its cores, or a Towpath job that waits, runs or is being made visible. -/
def State.anyWork (s : State) : Bool :=
  (List.range 128).any (fun u => (s.core u).tasked)
    || s.tows.any (fun x => !x.2.jobs.isEmpty || x.2.run.isSome || !x.2.done.isEmpty)

/-- The FLOOR state (R84): ballast is granted and no partition has work. -/
def State.floorStep (s : State) : State :=
  let work := s.anyWork
  let fl := !s.pow.ballNext.isEmpty && !work
  let s := s.wr .weirFloor (b2n fl)
  if s.rd .kprPstateState ≤ 1 then s.wr .kprPstateState (b2n fl) else s

/-- The conflicts that a PEAK_W taking effect meets (R100, Table 02-4 codes 0x1, 0x4, 0x6 and 0x7), in the order of their codes: `old4` is
the cap it replaces. -/
def State.peakLoss (s : State) (old4 : Nat) : State :=
  let new4 := 4000 * s.rd .rsvPeakW
  let d := ((s.pow.p4 : Int) - (4000 * s.rd .rsvSustainW : Int)).natAbs
  let rich := decide (d * d < s.pow.account * 16 * s.rd .weirDownWMs)
  let s := if old4 < new4 ∧ s.pow.thermCap4.isSome then s.policyLoss 1 none else s
  let s := if old4 < new4 ∧ s.pow.ceil4 < new4 then s.policyLoss 4 none else s
  let s := if old4 < new4 ∧ rich = false then s.policyLoss 6 none else s
  if new4 < old4 ∧ new4 < s.pow.p4 then s.policyLoss 7 none else s

/-- The chip enters the STANDBY condition: both tiers in self-refresh, with the breach of the step (R75, R77). -/
def State.enterStandby (s : State) : State :=
  let s := s.wr .kprPstateState 2
  ({ s with env := { s.env with selfRefresh := true, runWait := false, standbyIn := false } }).breach

/-- An accepted STANDBY request is carried out once power is near enough (R769). -/
def State.standbyStep (s : State) : State := if s.env.standbyIn && s.nearStandby then s.enterStandby else s

/-- The ramp and the ramp-close level at the end of an epoch (R86, R87): a ramp closes at the end of the first epoch in which demand does not
exceed the ceiling, with the P of that epoch; after READY or a breach the level is the P of the first epoch that begins once the breach
has ended. -/
def State.rampStep (s : State) : State :=
  let s := if s.rd .weirRampOpen = 1 ∧ s.pow.overNow = false then
      { s with pow := { s.pow with close4 := s.pow.p4 } }.wr .weirRampOpen 0
    else s
  let s := if s.pow.closeWait && !s.pow.heldMin then { s with pow := { s.pow with close4 := s.pow.p4Next, closeWait := false } } else s
  { s with pow := { s.pow with overNow := decide (s.pow.ceil4 < s.pow.demand4) } }

/-- The energy account at the end of an epoch (R67). -/
def State.accountStep (s : State) : State :=
  let acc : Int := (s.pow.account : Int) + (4000 * s.rd .rsvSustainW : Int) - (s.pow.p4 : Int)
  let acct := min acc.toNat (s.rd .rsvDepth * 200000000)
  let s := s.wr .rsvAccount (acct / 200000000)
  { s with pow := { s.pow with account := acct } }

/-- Every requesting island and the Reservoir at an epoch boundary (R56, R62, R67, R86, R87, R96, R776). -/
def State.epochStep (s : State) (telemOk : Bool) : State :=
  let s := s.accountStep.rampStep
  let peak0 := 4000 * s.rd .rsvPeakW
  let s := { s with old := s.old.filter (fun kv => isBwrKey kv.1) }
  let s := { s with pow := { s.pow with epoch := s.pow.epoch + 1, p4 := s.pow.p4Next, closed := false } }
  let src0 := s.rd .weirPaceSrc
  let slot0 := s.slot
  let s := ((s.takeCaptured (fun k => !(isBwrKey k))).pacingTaken src0 slot0).peakLoss peak0
  let s := s.commitDone
  let s := { s.adopt with pow := { s.adopt.pow with recv := [] } }.noteEpoch s.pow
  let s := s.floorStep.thermalStep.standbyStep
  let s := { s with pow := s.pow.paceStep }
  s.telemetry telemOk

/-- The units that an island may spend in this epoch: its work grant and its ballast units (R871). -/
def State.grantUnits (s : State) (i : Nat) : Nat := tabGet 0 i s.pow.grant + tabGet 0 i s.pow.ballast

/-- SUB_WINDOW (R64 to R66): the island's meter reports the charge since its last report, in sixteenths of a unit, and where `report.begins`
is true the next of the epoch's 16 sub-windows begins, with the allowance of one sixteenth of the grant and what the last one left. The
charge of an epoch stays within 2 % of the grant. -/
def execSubWindow (i : Nat) (report : MeterReport) (s : State) : Host.Outcome State Fault Refusal :=
  let g := s.grantUnits i
  let m := tabGet (⟨g, 0, 0⟩ : Meter) i s.pow.meters
  if 237 ≤ i ∨ (report.begins ∧ 15 ≤ m.sub) then stay s
  else
    let u := min report.used (16 * g * 102 / 100 - m.used)
    let m1 : Meter := ⟨m.allow - u, m.used + u, m.sub⟩
    fin { s with pow := { s.pow with meters := tabSet ⟨g, 0, 0⟩ i (if report.begins then ⟨g + m1.allow, m1.used, m1.sub + 1⟩ else m1) s.pow.meters } }

/-! ### Pacing -/

/-- A cycle start: it marks slot 0 for the next boundary, and a master sends it over MGMT (R89, R92). -/
def State.cycleStart (s : State) : State :=
  let s := { s with pow := { s.pow with paceMark := true, masters := [] } }
  let s := s.setReg .weirSlotNow 0 0 s.slot
  if s.rd .weirMaster = 1 then
    ((List.range s.chips).filter (fun c => decide (c ≠ s.chip))).foldl (fun s c => s.send
      { op := .paceTime, srcChip := s.chip, src := 185, dstChip := c, dst := 185, tag := s.pow.cycleNo,
        code := b2n s.pow.holdAll, addr := s.pow.slotCount - 1, len := s.pow.slotWidth, arg := s.pow.slotBase }) s
  else s

/-- The CRC-8 of R90: polynomial 0x07, initial value 0, over bits taken in order. -/
def crc8 : List Bool → Nat → Nat
  | [], c => c
  | b :: t, c => match (c.testBit 7) != b with
                 | true => crc8 t ((2 * c % 256) ^^^ 7)
                 | false => crc8 t (2 * c % 256)

/-- Bits of a number, most significant first. -/
def msbBits (n w : Nat) : List Bool := (List.range w).map (fun i => n.testBit (w - 1 - i))

/-- PACE_FRAME (R89, R90, R107): the 80 bits of Table 02-3, first bit sent most significant. A frame whose preamble, delimiter, CRC or
WIDTH is wrong is discarded. Heard only while PACE_SRC is 0. -/
def execPaceFrame (frame : BitVec 80) (s : State) : Host.Outcome State Fault Refusal :=
  let n := frame.toNat
  let ok := decide (bits n 64 16 = 0xAAAA) && decide (bits n 56 8 = 0xD5)
    && decide (crc8 (msbBits (bits n 8 48) 48) 0 = bits n 0 8) && decide (bits n 16 8 ≠ 0)
  if !ok || decide (s.rd .weirPaceSrc ≠ 0) then stay s
  else
    let s := { s with pow := { s.pow with
      cycleNo := bits n 40 16, slotCount := bits n 32 8 + 1, slotBase := bits n 24 8, slotWidth := bits n 16 8,
      holdAll := (bits n 8 8).testBit 0 } }
    fin ((s.wr .weirSrcInUse 0).cycleStart)

/-- PACE_LOSS_TIMEOUT (R91, R94): two pacing cycles have passed without the source in use. -/
def execPaceLossTimeout (masterReachable : Bool) (s : State) : Host.Outcome State Fault Refusal :=
  let src := s.rd .weirPaceSrc
  let use := s.rd .weirSrcInUse
  let lost := { s.wr .weirPaceLost 1 with pow := { s.pow with masters := [] } }
  if src = 0 ∧ use = 0 then fin (lost.wr .weirSrcInUse (if masterReachable then 1 else 2))
  else if src = 1 ∨ use = 1 then fin (lost.wr .weirSrcInUse 2)
  else stay s

/-- The masters that were heard earlier in the pacing cycle to which a cycle start of master `c` belongs: a chip that paces from link time
begins a cycle with the start of the master it follows, or with the third start of another one in a row of starts without that master's. -/
def Pow.heardBefore (p : Pow) (c : Nat) : List Nat :=
  if (p.masters.contains c && p.masters.all (fun x => decide (c ≤ x))) || decide (2 ≤ p.masters.count c) then [] else p.masters

/-- A pacing master's cycle start at a chip (R92, R93, R94). -/
def State.paceTime (s : State) (m : Msg) : State :=
  let heard := s.pow.heardBefore m.srcChip
  let s := if decide (s.rd .weirMaster = 1) || heard.any (fun c => decide (c ≠ m.srcChip)) then s.wr .weirMultiMaster 1 else s
  let s := { s with pow := { s.pow with masters := heard ++ [m.srcChip] } }
  let linkPaced := decide (s.rd .weirPaceSrc = 1) || decide (s.rd .weirSrcInUse = 1)
  if s.rd .weirMaster = 1 ∨ ¬ linkPaced ∨ heard.any (fun c => decide (c < m.srcChip)) then s
  else
    let s := { s with pow := { s.pow with
      cycleNo := m.tag, slotCount := m.addr + 1, slotBase := m.arg, slotWidth := max 1 m.len, holdAll := decide (m.code % 2 = 1),
      paceMark := true } }
    (s.wr .weirSrcInUse 1).setReg .weirSlotNow 0 0 s.slot

/-- Takes message `k` out of flight. -/
def State.take (s : State) (k : Nat) : State := { s with net := s.net.eraseIdx k }

/-- The mesh stop of a unit, by the island numbers of Table 02-10 (Table 01-2): a core's quad stop, a controller's edge stop, a Towpath engine's stop;
the YZ2-KB block, unit 128, stands for itself. -/
def stopOf (u : Nat) : Nat :=
  if u < 128 then 128 + u / 4 else if u = 128 then 240 else if 188 ≤ u ∧ u < 208 then u - 28 else if 233 ≤ u then 186 + (u - 233) / 2 else u

/-- The stop at which a message enters the mesh: its source's, or for one from another chip the link stop of the target core's row (R24), that of the
link where the target is no core (Table 01-2). -/
def Msg.srcStop (m : Msg) (chip : Nat) : Nat :=
  if m.srcChip = chip then stopOf m.src else if m.dst < 128 then 180 + m.dst / 32 else if m.link < 24 then 180 + m.link / 6 else 241

/-- Two messages travel in one order: one message class between two stops of this chip (R26, R31); from another chip, one virtual channel of one
source and destination too (R624). -/
def Msg.sameFlow (x m : Msg) (chip : Nat) : Bool :=
  decide (x.dstChip = m.dstChip)
    && ((decide (x.srcStop chip = m.srcStop chip) && decide (stopOf x.dst = stopOf m.dst) && decide ((x.op.vc = 1) ↔ (m.op.vc = 1)))
      || (decide (x.srcChip = m.srcChip) && decide (x.src = m.src) && decide (x.dst = m.dst) && decide (x.op.vc = m.op.vc)))

/-- A sluice operation that ORD held back or holds back (R399): it is sent when what it names is complete, so its place among the messages of
other operations is not that of its issue. -/
def State.ordered (s : State) (m : Msg) : Bool :=
  decide (m.op = .sop) && decide (m.srcChip = s.chip) && decide (m.src ≤ 128)
    && (s.core m.src).posted.any (fun p => decide (p.tag = m.tag) && !p.ord.isEmpty)

/-- Message `k` in flight, where it is of kind `op`, is addressed to this chip, and no earlier message of its flow is before it. -/
def State.arrival (s : State) (op : MsgOp) (k : Nat) : Option Msg :=
  match s.net[k]? with
  | some m => if m.op = op ∧ m.dstChip = s.chip ∧ ¬ (s.net.take k).any (fun x => x.sameFlow m s.chip && !(s.ordered x)) then some m else none
  | none => none

/-- PACE_TIME (R92): message `k` is a master's cycle start. -/
def execPaceTime (k : Nat) (s : State) : Host.Outcome State Fault Refusal :=
  match s.arrival .paceTime k with
  | some m => fin ((s.take k).paceTime m)
  | none => stay s

/-- LOCAL_PACING_CYCLE (R92, R94, R95): a cycle start of the chip's own timer, where the local timer paces or the chip is a master. -/
def execLocalPacingCycle (s : State) : Host.Outcome State Fault Refusal :=
  if s.rd .weirSrcInUse = 2 ∨ s.rd .weirPaceSrc = 2 ∨ s.rd .weirMaster = 1 then
    let s := { s with pow := { s.pow with cycleNo := (s.pow.cycleNo + 1) % 65536, holdAll := false } }
    let s := if s.rd .weirPaceSrc = 2 then s.wr .weirSrcInUse 2 else s
    fin s.cycleStart
  else stay s

/-- The chip's slot begins at this epoch (R85, R88). -/
def State.inSlotStart (s : State) : Bool := decide (s.pow.pacePos = some (s.slot * s.pow.slotWidth))

/-- PACING_SLOT_START (R85, R106, R107): a ramp opens when demand exceeds the ramp-close level by more than FREE_W. -/
def execPacingSlotStart (s : State) : Host.Outcome State Fault Refusal :=
  if !s.inSlotStart then stay s
  else
    let want := decide (s.pow.close4 + 4000 * s.rd .weirFreeW < s.pow.demand4) && decide (s.rd .weirRampOpen = 0)
    fin (if want && !s.pow.holdAll then s.wr .weirRampOpen 1 else s)

/-! ### Heat, supplies and breaches -/

/-- THERMAL_THROTTLE (R99): a junction reading; the cap engages at THROTTLE_C and is released below THROTTLE_C − 3. -/
def execThermalThrottle (tempC : Nat) (s : State) : Host.Outcome State Fault Refusal := fin (s.heat tempC)

/-- BREACH_EVENT (R75): a breach that no command of its own reports. -/
def execBreachEvent (_kind : BreachKind) (s : State) : Host.Outcome State Fault Refusal := fin s.breach

/-- THERMAL_TRIP_110 (R75, R888): every requesting island runs at its MIN, THERM_N is asserted, and the breach is recorded. -/
def execThermalTrip110 (tempC : Nat) (s : State) : Host.Outcome State Fault Refusal :=
  if tempC < 110 then stay s
  else
    let s := s.heat tempC
    let s := { s with env := { s.env with thermN := true }, pow := { s.pow with heldMin := true } }
    fin (s.breach.emit (.pin "THERM_N" false))

/-- THERM_N_RELEASE (R888): every sensor reads below 100 °C. -/
def execThermNRelease (tempC : Nat) (s : State) : Host.Outcome State Fault Refusal :=
  if s.env.thermN ∧ tempC < 100 then
    let s := s.heat tempC
    fin ({ s with env := { s.env with thermN := false }, pow := { s.pow with heldMin := false } }.emit (.pin "THERM_N" true))
  else stay s

/-- PMBUS_READ (R97): one round of readings in mW; after 8 readings in a row off by more than 3 % firmware trims P_STATIC to `trimMw`.
DESIGN CHOICE (log 101): the count of 8 starts anew after a trim, for R97 does not say whether a ninth reading may trim again at once. -/
def execPmbusRead (readings : List Nat) (pinMw trimMw : Nat) (s : State) : Host.Outcome State Fault Refusal :=
  let acc := s.pow.p4 / 4
  let off := decide (3 * acc < 100 * ((pinMw : Int) - (acc : Int)).natAbs)
  let run := if off then s.env.pmbusRun + 1 else 0
  let s := { s with env := { s.env with pmbus := readings, pmbusRun := if 8 ≤ run then 0 else run } }
  fin (if 8 ≤ run then s.wr .rsvPStaticMw trimMw else s)

end Sys2Proof.Machine
end

