-- ==== Sys2Proof/Machine/Memory.lean ====
section
/-! DEFINITION. External memory (10_memory_tiers.md): device addresses, controllers, poison, translation (R727, R728), requests at the
controllers and their service order (R551, R552), atomics and ledger cells. -/

namespace Sys2Proof.Machine

/-! ### Bytes and poison -/

/-- The control region (Table 10-1). -/
def ctrlBase : Nat := 0x3FC0000000
def tier2Base : Nat := 0x4000000000
def inControl (da : Nat) : Bool := decide (ctrlBase ≤ da) && decide (da < tier2Base)

/-- The controller of a device address (R482, R483): 0 to 7 HBM3E, 8 to 19 DDR5. -/
def ctlOf (da : Nat) : Nat :=
  if da < tier2Base then bits da 11 3 ^^^ bits da 21 3 else 8 + (da - tier2Base) / 4096 % 12

/-- The location within the controller (R482, R483). -/
def locOf (da : Nat) : Nat :=
  if da < tier2Base then bits da 14 26 * 2048 + bits da 0 11
  else (da - tier2Base) / 4096 / 12 * 4096 + (da - tier2Base) % 4096

def Memory.byte (m : Memory) (a : Nat) : Byte := tabGet 0 a m.cells
def Memory.reads (m : Memory) (a n : Nat) : Bytes := (List.range n).map (fun i => m.byte (a + i))

/-- Poison after a write of `n` bytes at `a`: a poisoned write marks its lines (Table 17-2), a whole-line write clears the mark, a partial
write leaves it (R490). -/
def Memory.markLines (m : Memory) (a n : Nat) (poison : Bool) : Memory :=
  { m with poison := (List.range (lineCount a n)).foldl (fun ps i =>
      let ln := a / 64 + i
      if poison then setAdd ln ps
      else if a ≤ 64 * ln ∧ 64 * ln + 64 ≤ a + n then setDel ln ps else ps) m.poison }

/-- A write of bytes. -/
def Memory.write (m : Memory) (a : Nat) (l : Bytes) (poison : Bool) : Memory := (m.putBytes a l).markLines a l.length poison

/-- Some line of [a, a + n) is poisoned. -/
def Memory.anyPoison (m : Memory) (a n : Nat) : Bool := m.poison.any (fun ln => decide (64 * ln + 64 > a) && decide (64 * ln < a + n))

/-- Zero in [a, a + n), poison cleared in its whole lines: the fills of R736 and R755. -/
def Memory.zeroRange (m : Memory) (a n : Nat) : Memory :=
  { cells := tabKeep (fun k => !(decide (a ≤ k) && decide (k < a + n))) m.cells,
    poison := m.poison.filter (fun ln => !(decide (a ≤ 64 * ln) && decide (64 * ln + 64 ≤ a + n))) }

/-! ### Cached lines of the control region -/

/-- The place of a cache's line in the table of cache lines; `line` counts 64-byte lines of the control region. -/
def cacheKey (n line : Nat) : Nat := n * 2 ^ 24 + line
def ctrlLine (da : Nat) : Nat := (da - ctrlBase) / 64 % 2 ^ 24
def State.cline (s : State) (n line : Nat) : CacheLine := tabGet {} (cacheKey n line) s.ms.cache
def State.setCline (s : State) (n line : Nat) (x : CacheLine) : State :=
  { s with ms := { s.ms with cache := tabSet {} (cacheKey n line) x s.ms.cache } }
def State.dirEnt (s : State) (line : Nat) : DirEnt := tabGet {} line s.ms.dir
def State.setDir (s : State) (line : Nat) (x : DirEnt) : State := { s with ms := { s.ms with dir := tabSet {} line x s.ms.dir } }

/-- A dirty copy of a control-region line. -/
def State.dirty (s : State) (line : Nat) : Option Nat :=
  ((List.range 17).find? (fun n => decide ((s.cline n line).st = 3))).map (fun n => (s.cline n line).data)

/-- Writes a dirty copy back to memory. -/
def State.writeBack (s : State) (line data : Nat) : State :=
  { s with mem := s.mem.write (ctrlBase + 64 * line) (toBytes 64 data) false }

/-- Requests that wait at a controller and name a line of [da, da + n): a one-step access must not pass them (R504, R552). -/
def State.waitsAt (s : State) (da n : Nat) : Bool :=
  s.ms.queues.any (fun q => q.2.any (fun r => decide (r.msg.addr / 64 * 64 < da + n) && decide (da < r.msg.addr / 64 * 64 + 64)))

/-! ### The directory (Table 10-8) -/

/-- The controller whose directory tracks a line. -/
def dirCtl (line : Nat) : Nat := ctlOf (ctrlBase + 64 * line)

def State.coh (s : State) (m : CohMsg) : State := { s with ms := { s.ms with coh := s.ms.coh ++ [m] } }

/-- RETRY to a cache, counted at the line's controller (R523). -/
def State.sendRetry (s : State) (n line : Nat) : State := (s.coh ⟨.retry, n, line, 0⟩).bump .mcDirRetry (dirCtl line) 0 1

/-- The line's data as memory holds it. -/
def State.lineData (s : State) (line : Nat) : Nat := ofBytes (s.mem.reads (ctrlBase + 64 * line) 64)

/-- Serves a request for a line that is not busy: a read, or a request for ownership (Table 10-8). The holders that must give the line up are
recalled or invalidated first, and the line is busy meanwhile; a request that is not `held` then waits with it. -/
def State.dirServe (s : State) (n line : Nat) (own held : Bool) : State :=
  let d := s.dirEnt line
  let wait := if held then d.waiting else d.waiting ++ [(n, own)]
  let done := if held then d.held.filter (fun x => decide (x.1 ≠ n)) else d.held
  if d.st = 2 then
    (s.setDir line { d with st := 3, waiting := wait, toAck := [d.owner] }).coh ⟨.recall, d.owner, line, 0⟩
  else if !own then
    (s.setDir line { d with st := 1, sharers := setAdd n d.sharers, held := done }).coh ⟨.dataS, n, line, s.lineData line⟩
  else
    let others := d.sharers.filter (fun c => decide (c ≠ n))
    if others.isEmpty then
      let had := d.sharers.contains n && decide ((s.cline n line).st = 1)
      (s.setDir line { d with st := 2, owner := n, sharers := [], held := done }).coh
        (if had then ⟨.ackX, n, line, 0⟩ else ⟨.dataX, n, line, s.lineData line⟩)
    else
      others.foldl (fun s c => s.coh ⟨.inv, c, line, 0⟩) (s.setDir line { d with st := 3, waiting := wait, toAck := others })

/-- The least of a list of requests by cache number. -/
def leastReq (l : List (Nat × Bool)) : Option (Nat × Bool) :=
  l.foldl (fun b r => match b with
    | none => some r
    | some x => if r.1 < x.1 then some r else some x) none

/-- Serves the requests held for a line in ascending cache number, until none is left or the line is busy (R524); `n` bounds the number. -/
def State.dirHeld (s : State) (line : Nat) : Nat → State
  | 0 => s
  | n + 1 =>
    let d := s.dirEnt line
    match leastReq d.held with
    | some r => if d.st = 3 then s else State.dirHeld (s.dirServe r.1 line r.2 true) line n
    | none => s

/-- The line is no longer busy (R522, R524): held requests go first; else the read that made it busy; else ownership requests in ascending
cache number. Every waiting request that is not served receives RETRY. An access of a controller goes before them all. -/
def State.dirResolve (s : State) (line : Nat) : State :=
  let d := s.dirEnt line
  let free := { d with st := if d.st = 2 then 2 else if d.sharers.isEmpty then 0 else 1, owner := if d.st = 2 then d.owner else 0, toAck := [],
                       reuse := false }
  if s.waitsAt (ctrlBase + 64 * line) 64 then s.setDir line free
  else if !d.held.isEmpty then
    let s := (s.setDir line { free with waiting := [] }).dirHeld line 18
    d.waiting.foldl (fun s x => s.sendRetry x.1 line) s
  else
    match (match d.waiting.find? (fun r => !r.2) with
      | some r => some r
      | none => leastReq d.waiting) with
    | none => s.setDir line free
    | some r =>
      let s := (s.setDir line { free with waiting := [] }).dirServe r.1 line r.2 false
      (d.waiting.filter (fun x => decide (x.1 ≠ r.1))).foldl (fun s x => s.sendRetry x.1 line) s

/-- Every cache's copy of a line becomes invalid. -/
def State.dropCopies (s : State) (line : Nat) : State :=
  (List.range 17).foldl (fun s n => if (s.cline n line).st = 0 then s else s.setCline n line { s.cline n line with st := 0, data := 0 }) s

/-- The directory's messages about a line are withdrawn, and the line is tracked no more; a cache that a grant was for, like one whose request
waits, is told to retry. -/
def State.withdraw (s : State) (line : Nat) : State :=
  let d := s.dirEnt line
  let grant (k : CohKind) : Bool := decide (k = .dataS) || decide (k = .dataX) || decide (k = .ackX)
  let gone (m : CohMsg) : Bool := decide (m.line = line) && (grant m.kind || decide (m.kind = .inv) || decide (m.kind = .recall))
  let again := (s.ms.coh.filter (fun m => decide (m.line = line) && grant m.kind)).map (fun m => m.cache) ++ d.waiting.map (fun r => r.1)
  let s := { s with ms := { s.ms with coh := s.ms.coh.filter (fun m => !(gone m)) } }
  again.foldl (fun s n => s.sendRetry n line) (s.setDir line { held := d.held })

/-- A one-step write takes a control-region line back from every cache at once (R526), a dirty copy being written back first. -/
def State.recallNow (s : State) (line : Nat) : State :=
  match s.dirty line with
  | some d => ((s.writeBack line d).dropCopies line).withdraw line
  | none => (s.dropCopies line).withdraw line

/-- A byte as the coherent memory holds it. -/
def State.memByte (s : State) (da : Nat) : Byte :=
  if inControl da then
    match s.dirty (ctrlLine da) with
    | some d => BitVec.ofNat 8 (d / 256 ^ (da % 64))
    | none => s.mem.byte da
  else s.mem.byte da

/-- Bytes and numbers of memory at a device address. -/
def State.memReads (s : State) (da n : Nat) : Bytes := (List.range n).map (fun i => s.memByte (da + i))
def State.memNum (s : State) (da n : Nat) : Nat := ofBytes (s.memReads da n)

/-- A write at a device address, after the caches have given up their copies; requests held for its lines are then served (R524). -/
def State.memWrite (s : State) (da : Nat) (l : Bytes) (poison : Bool) : State :=
  if inControl da then
    let lines := (List.range (lineCount da l.length)).map (fun i => ctrlLine (da + 64 * i))
    let s := lines.foldl (fun s x => s.recallNow x) s
    lines.foldl (fun s x => s.dirResolve x) { s with mem := s.mem.write da l poison }
  else { s with mem := s.mem.write da l poison }

/-! ### Translation -/

/-- The walk of a partition's table (R727): the device address and whether the page is read-only. -/
def State.walk (s : State) (p pa : Nat) : Option (Nat × Bool) :=
  let e1 := s.memNum (8192 * s.reg .partXlateBase 0 p + 8 * bits pa 30 10) 8
  if !(e1.testBit 0) then none
  else if e1.testBit 1 then some (bits e1 30 10 * 2 ^ 30 + pa % 2 ^ 30, e1.testBit 2)
  else
    let e2 := s.memNum (4096 * bits e1 12 28 + 8 * bits pa 21 9) 8
    if !(e2.testBit 0) then none else some (bits e2 21 19 * 2 ^ 21 + pa % 2 ^ 21, e2.testBit 2)

/-- A device address lies in one of the partition's windows. -/
def State.inWindow (s : State) (p da : Nat) : Bool :=
  (List.range 8).any (fun w => decide (s.reg .winV 0 (8 * p + w) = 1)
    && decide (s.reg .winBase 0 (8 * p + w) ≤ da / 2 ^ 21)
    && decide (da / 2 ^ 21 ≤ s.reg .winBase 0 (8 * p + w) + s.reg .winPages 0 (8 * p + w)))

/-- Translation of a partition address (R727, R728, R732); `wr` for a write or an atomic. Partition 16 stands for the chip-level masters,
whose addresses are device addresses. -/
def State.xlate (s : State) (p pa : Nat) (wr : Bool) : Option Nat :=
  if p = 16 then (if pa < 2 ^ 40 then some pa else none)
  else if s.reg .partXlateEn 0 p = 0 ∨ 2 ^ 40 ≤ pa then none
  else match s.walk p pa with
    | none => none
    | some (da, ro) => if (wr && ro) || !(s.inWindow p da) || inControl da then none else some da

/-- PART_STATUS.XLATE (R697, Table 15-12). -/
def State.noteXlate (s : State) (p : Nat) : State := if p = 16 then s else s.setReg .partXlate 0 p 1

/-- [pa, pa + n) cut at 64-byte lines: (address, bytes, offset), given enough fuel. -/
def cutLines : Nat → Nat → Nat → Nat → List (Nat × Nat × Nat)
  | 0, _, _, _ => []
  | f + 1, pa, n, o =>
    if n = 0 then []
    else
      let k := min n (64 - pa % 64)
      (pa, k, o) :: cutLines f (pa + k) (n - k) (o + k)

/-- The pieces of [pa, pa + n). -/
def linesOf (pa n : Nat) : List (Nat × Nat × Nat) := cutLines (n / 64 + 2) pa n 0

/-- A read made in one step: bytes, whether one was poisoned, and the first failing status (DMA_XLATE before MEM_UE by address). -/
def State.readPa (s : State) (p pa n : Nat) : Bytes × Bool × Nat :=
  (linesOf pa n).foldl (fun (acc : Bytes × Bool × Nat) x =>
    match s.xlate p x.1 false with
    | none => (acc.1 ++ List.replicate x.2.1 0, acc.2.1, if acc.2.2 = 0 then St.dmaXlate else acc.2.2)
    | some da =>
      let bad := s.mem.anyPoison da x.2.1
      (acc.1 ++ s.memReads da x.2.1, acc.2.1 || bad, if acc.2.2 = 0 ∧ bad then St.memUe else acc.2.2)) ([], false, 0)

/-- A line of a page that is being moved is marked when it is written (Table 10-7, R529), in the hold phase by an access that was translated
before it. -/
def State.moverMark (s : State) (da : Nat) : State :=
  let mark (v : Mover) : Mover :=
    if v.phase ≠ 0 ∧ v.src / 2 ^ 21 = da / 2 ^ 21 then { v with marked := setAdd (da / 64) v.marked } else v
  { s with ms := { s.ms with mv0 := mark s.ms.mv0, mv1 := mark s.ms.mv1 } }

/-- A write made in one step, whose lines that fail translation are not written. -/
def State.writePa (s : State) (p pa : Nat) (l : Bytes) (poison : Bool) : State × Nat :=
  (linesOf pa l.length).foldl (fun (acc : State × Nat) x =>
    match acc.1.xlate p x.1 true with
    | none => (acc.1.noteXlate p, if acc.2 = 0 then St.dmaXlate else acc.2)
    | some da => ((acc.1.memWrite da (sliceBytes l x.2.2 x.2.1) poison).moverMark da, acc.2)) (s, 0)

/-- The mover that holds accesses to the page of a device address (Table 10-7 phase 3). -/
def State.heldBy (s : State) (da : Nat) : Option Nat :=
  let holds (v : Mover) : Bool := decide (v.phase = 3) && decide (v.src / 2 ^ 21 = da / 2 ^ 21)
  if holds s.ms.mv0 then some 0 else if holds s.ms.mv1 then some 1 else none

/-! ### Service order (R551, R552) -/

def State.ctlQueue (s : State) (m : Nat) : List CtlReq := tabGet [] m s.ms.queues
def State.setCtlQueue (s : State) (m : Nat) (q : List CtlReq) : State := { s with ms := { s.ms with queues := tabSet [] m q s.ms.queues } }

/-- The keys of R551 before row hits and age, as one number: CRIT, waited 4 µs, effective priority (R546, R553), urgency. -/
def State.rankOf (s : State) (c urg : Nat) (demoted aged : Bool) : Nat :=
  let pr := if demoted && decide (urg ≠ 3) then 0 else s.prio c
  (if urg = 3 then 64 else 0) + (if aged then 32 else 0) + 4 * pr + urg

/-- The rank of a queued request at time `t`. -/
def State.rank (s : State) (t : Nat) (r : CtlReq) : Nat := s.rankOf r.msg.cls r.msg.urg r.msg.demoted (decide (r.t + 4000 ≤ t))

/-- The line of a queued request. -/
def CtlReq.line (r : CtlReq) : Nat := r.msg.addr / 64

/-- The rank with which a request is served: the highest of any later request to its line (R552). -/
def State.servedRank (s : State) (t : Nat) (q : List CtlReq) (r : CtlReq) : Nat :=
  (q.filter (fun x => decide (x.line = r.line) && decide (r.ord ≤ x.ord))).foldl (fun a x => max a (s.rank t x)) 0

/-- The request served next: none that an earlier one to its line stands before; highest rank, row hits first, then oldest. -/
def State.pickReq (s : State) (t : Nat) (hits : List Nat) (q : List CtlReq) : Option CtlReq :=
  let free := q.filter (fun r => !(q.any (fun x => decide (x.line = r.line) && decide (x.ord < r.ord))))
  let score (r : CtlReq) : Nat := 2 * s.servedRank t q r + b2n (hits.contains r.ord)
  free.foldl (fun best r => match best with
    | none => some r
    | some b => if score b < score r ∨ (score b = score r ∧ r.ord < b.ord) then some r else some b) none

/-- A request that the model makes in one step would be served next at the controller of `da`: each queued request has a lower rank than
one of class `c` from port `p`, with the port's urgency and the mark of a demoted port (R541, R544). -/
def State.servedFirst (s : State) (c p da : Nat) : Bool :=
  let x := s.bwPort c p
  let own := s.rankOf c (s.newUrg c p x) (s.overBy c 1 x && !(s.holds c)) false
  let q := s.ctlQueue (ctlOf da)
  q.all (fun r => decide (s.servedRank s.ms.now q r < own))

/-- A one-step access of class `c` from port `p` to [pa, pa + n) may take effect: no request that waits for one of its lines or is to be served
before it stands in its way, no mover holds its page (R517), and no cache owns a line of it (R526). -/
def State.clearPa (s : State) (c port p pa n : Nat) : Bool :=
  (linesOf pa n).all (fun x => match s.xlate p x.1 false with
    | none => true
    | some da => !(s.waitsAt da x.2.1) && s.servedFirst c port da && (s.heldBy da).isNone
        && !(inControl da && decide (2 ≤ (s.dirEnt (ctrlLine da)).st)))

/-! ### Atomics (Table 10-5) -/

/-- The operation word of an atomic: AOP, ATYPE, SAT, SIGNED and CLEAR. -/
def aOp (c : Nat) : Nat := bits c 0 4
def aType (c : Nat) : Nat := bits c 4 3
def aSat (c : Nat) : Bool := c.testBit 7
def aSigned (c : Nat) : Bool := c.testBit 8
def aClear (c : Nat) : Bool := c.testBit 9

/-- The memory element and the scratchpad element in bytes. -/
def memElt (aop ty : Nat) : Nat :=
  if aop = 7 ∨ aop = 8 then 64 else if ty = 1 ∨ ty = 4 ∨ ty = 5 then 8 else 4
def spdElt (aop ty : Nat) : Nat :=
  if aop = 8 then 4 else if aop = 7 then (if ty = 4 then 8 else 4) else if ty = 5 then 4 else memElt aop ty

/-- The combinations of Table 10-5 (R500). -/
def atomListed (aop dir ty : Nat) : Bool :=
  if dir = 0 then decide (aop = 8) && decide (ty = 2)
  else if aop = 1 then decide (ty = 0) || decide (ty = 1) || decide (ty = 2) || decide (ty = 3) || decide (ty = 5)
  else if aop = 2 ∨ aop = 3 then decide (ty ≤ 2)
  else if 4 ≤ aop ∧ aop ≤ 6 then decide (ty ≤ 1)
  else decide (aop = 7) && (decide (ty = 2) || decide (ty = 4))

/-- Numeric events of a memory operation, in the order of DMA_STATUS.NUM (R505): OVF, INV, NANIN, UNF. -/
def numEvents (fl : Nat) : Nat :=
  b2n (fl &&& Nf.ovf ≠ 0) + 2 * b2n (fl &&& Nf.inv ≠ 0) + 4 * b2n (fl &&& Nf.nanin ≠ 0) + 8 * b2n (fl &&& Nf.unf ≠ 0)

/-- Floating addition at a controller (R503): subnormal inputs and results flush. -/
def atomFadd (code : Nat) (sat : Bool) (m x : Nat) : Nat × Nat :=
  let a := readVal code m
  let b := readVal code x
  let r := valSum [a.1, b.1]
  let o := convFp (fpFmt code) sat r.1
  (o.1, numEvents (r.2 ||| o.2 ||| (if a.1.isNan || b.1.isNan then Nf.nanin else 0)))

/-- Order of FP32 encodings for MIN and MAX, −0 below +0. -/
def fLess (m x : Nat) : Bool :=
  let a := dec32 m
  let b := dec32 x
  if a.isZero ∧ b.isZero then a.sign && !b.sign else valLt a b

/-- One memory element and one operand element: the new element and its events. -/
def atomElt (c m x : Nat) : Nat × Nat :=
  let ty := aType c
  let w := if ty = 1 ∨ ty = 5 then 64 else 32
  let less (a b : Nat) : Bool := if ty = 2 then fLess a b else if aSigned c then decide (sext w a < sext w b) else decide (a < b)
  let anyNan := decide (ty = 2) && ((dec32 m).isNan || (dec32 x).isNan)
  if aOp c = 1 then
    if ty = 2 then atomFadd 0 (aSat c) m x
    else if ty = 3 then
      let lo := atomFadd 1 (aSat c) (bits m 0 16) (bits x 0 16)
      let hi := atomFadd 1 (aSat c) (bits m 16 16) (bits x 16 16)
      (lo.1 + hi.1 * 2 ^ 16, lo.2 ||| hi.2)
    else if ty = 5 then ((m + wrapN 64 (sext 32 x)) % 2 ^ 64, 0)
    else ((m + x) % 2 ^ w, 0)
  else if aOp c = 2 ∨ aOp c = 3 then
    if anyNan then (0x7FC00000, 4)
    else if aOp c = 2 then (if less x m then x else m, 0)
    else (if less m x then x else m, 0)
  else if aOp c = 4 then (m &&& x, 0)
  else if aOp c = 5 then (m ||| x, 0)
  else (m ^^^ x, 0)

/-! ### Ledger cells (Table 10-6) -/

/-- The fields of a cell. Reserved bits are ignored (R510). -/
structure Cell where
  value : Nat
  nan   : Bool
  pinf  : Bool
  ninf  : Bool
  adds  : Nat
deriving DecidableEq, Repr

def unpackCell (n : Nat) : Cell := ⟨bits n 0 342, n.testBit 352, n.testBit 353, n.testBit 354, bits n 384 64⟩

/-- A cell as a number, its reserved bits 0 (R510). -/
def packCell (c : Cell) : Nat :=
  c.value % 2 ^ 342 + b2n c.nan * 2 ^ 352 + b2n c.pinf * 2 ^ 353 + b2n c.ninf * 2 ^ 354 + c.adds % 2 ^ 64 * 2 ^ 384

/-- LEDGER_ADD of one FP32 term (R508). -/
def Cell.add (c : Cell) (x : Nat) : Cell :=
  let v := (readVal 0 x).1
  let c := { c with adds := (c.adds + 1) % 2 ^ 64 }
  match v with
  | .nan => { c with nan := true }
  | .inf n => if n then { c with ninf := true } else { c with pinf := true }
  | .num _ _ _ => { c with value := wrapN 342 ((c.value : Int) + unitsOf (-149) v) }

/-- LEDGER_SETTLE's value and events (R511). -/
def Cell.settle (c : Cell) (sat : Bool) : Nat × Nat :=
  if c.nan then (0x7FC00000, 0)
  else if c.pinf && c.ninf then (0x7FC00000, 2)
  else if c.pinf then (0x7F800000, 0)
  else if c.ninf then (0xFF800000, 0)
  else
    let i := sext 342 c.value
    let o := convFp (fpFmt 0) sat (.num (decide (i < 0)) i.natAbs (-149))
    (o.1, numEvents o.2)

/-- LEDGER_ADD with the scratchpad element's bytes: one term, or a sum term and an error term (R509). -/
def ledgerAddCell (c ty x : Nat) : Nat :=
  let u := (unpackCell c).add (bits x 0 32)
  packCell (if ty = 4 then u.add (bits x 32 32) else u)

/-! ### Requests at the controllers -/

/-- Answers message `m`: the answer goes to its source under its tag. -/
def State.answer (s : State) (m : Msg) (op : MsgOp) (code : Nat) (data : Bytes) (poison : Bool) (events : Nat) : State :=
  s.send { op := op, srcChip := s.chip, src := m.dst, dstChip := m.srcChip, dst := m.src, dsub := m.sub, part := m.part, flight := m.flight,
           tag := m.tag, seq := m.seq, code := code, data := data, poison := poison, events := events, arg := m.op.vc }

/-- A request that cannot be applied: its status for a source on this chip, else an RSP NACK with the reason of Table 13-6 (R631). -/
def State.refuse (s : State) (m : Msg) (status reason : Nat) : State :=
  if m.srcChip = s.chip then s.answer m .complete status [] false 0 else s.answer m .nack reason [] false 0

/-- The partition whose memory a request names: its source's on this chip, else the enabled one whose FLIGHT matches (Table 13-4). -/
def State.reqPart (s : State) (m : Msg) : Option Nat := if m.srcChip = s.chip then some m.part else s.partOfFlight m.flight

/-- A request writes memory: a write or an atomic; LEDGER_SETTLE counts as an atomic (R728). -/
def MsgOp.writes (o : MsgOp) : Bool := !(decide (o = .read))

/-- The mover of a number. -/
def State.mover (s : State) (m : Nat) : Mover := if m = 0 then s.ms.mv0 else s.ms.mv1
def State.setMover (s : State) (m : Nat) (v : Mover) : State :=
  if m = 0 then { s with ms := { s.ms with mv0 := v } } else { s with ms := { s.ms with mv1 := v } }

/-- A request arrives at its controller's stop at time `t` ns: it is translated, refused, held by a mover, or queued in arrival order (R504,
R497, R734, Table 13-6). -/
def State.arriveReq (s : State) (m : Msg) (t : Nat) : State :=
  match s.reqPart m with
  | none => s.refuse m St.dmaXlate 2
  | some p =>
    if p < 16 ∧ s.reg .partState 0 p = 2 then
      let s := if m.srcChip = s.chip then s else s.bump .partDownNack 0 p 1
      s.refuse m St.partDown 3
    else match s.xlate p m.addr m.op.writes with
      | none => (s.noteXlate p).refuse m St.dmaXlate 5
      | some da => match s.heldBy da with
        | some v => s.setMover v { s.mover v with held := (s.mover v).held ++ [m] }
        | none =>
          let c := ctlOf da
          let s := s.setCtlQueue c (s.ctlQueue c ++ [⟨{ m with addr := da, part := p }, t, s.ms.nextOrd⟩])
          { s with ms := { s.ms with nextOrd := s.ms.nextOrd + 1, now := max s.ms.now t } }

/-- Message `k` of kind `op` arrives as a request. -/
def State.execReq (s : State) (op : MsgOp) (k t : Nat) : Host.Outcome State Fault Refusal :=
  match s.arrival op k with
  | some m => fin ((s.take k).arriveReq m t)
  | none => stay s

/-- READ (R504). -/
def execRead (k t : Nat) (s : State) : Host.Outcome State Fault Refusal := s.execReq .read k t

/-- WRITE (R504). -/
def execWrite (k t : Nat) (s : State) : Host.Outcome State Fault Refusal := s.execReq .write k t

/-- ATOMIC (R502, R504). -/
def execAtomic (k t : Nat) (s : State) : Host.Outcome State Fault Refusal := s.execReq .atomic k t

/-- LEDGER_ADD (R504, R508). -/
def execLedgerAdd (k t : Nat) (s : State) : Host.Outcome State Fault Refusal := s.execReq .ledgerAdd k t

/-- LEDGER_SETTLE (R504, R511). -/
def execLedgerSettle (k t : Nat) (s : State) : Host.Outcome State Fault Refusal := s.execReq .ledgerSettle k t

/-! ### Service -/

/-- An uncorrectable error found in the line at `da` (R489, R787). -/
def State.ueFound (s : State) (m da : Nat) (p : Nat) : State :=
  let s := { s with mem := { s.mem with poison := setAdd (da / 64) s.mem.poison } }
  let s := ((s.setReg .mcUe m 0 1).setReg .mcLogAddr m 0 (da / 64 * 64)).setReg .mcLogValid m 0 1
  s.errRecord { cls := 1, source := 2, unit := m, part := if p < 16 then some p else none, code := St.memUe, action := 1, addr := da / 64 * 64 }

/-- A correctable error corrected on delivery (R488). -/
def State.ceFound (s : State) (m : Nat) : State :=
  let s := { s with corr := tabSet 0 (512 + m) (tabGet 0 (512 + m) s.corr + 1) s.corr }
  (s.setReg .mcCe m 0 1).bump .mcCeCount m 0 1

/-- What the code finds in a line that is read. -/
def State.eccLine (s : State) (m da p : Nat) (e : EccResult) : State :=
  match e with
  | .clean => s
  | .corrected => s.ceFound m
  | .uncorrectable => s.ueFound m da p

/-- What the code finds in the lines that a one-step read of [pa, pa + n) names; `ecc` lists the lines with errors. -/
def State.memErrs (s : State) (p pa n : Nat) (ecc : List MemErr) : State :=
  (linesOf pa n).foldl (fun s x => match s.xlate p x.1 false with
    | some da => match ecc.find? (fun e => decide (e.line = da / 64)) with
      | some e => s.eccLine (ctlOf da) da p (if e.ue then .uncorrectable else .corrected)
      | none => s
    | none => s) s

/-- An atomic or ledger request in one step (R502): the new bytes of its elements, its events, and for LEDGER_SETTLE the settled values. -/
def atomBytes (c : Nat) (old data : Bytes) (n : Nat) : Bytes × Nat × Bytes :=
  let me := memElt (aOp c) (aType c)
  let se := spdElt (aOp c) (aType c)
  (List.range (n / me)).foldl (fun (acc : Bytes × Nat × Bytes) i =>
    let m := field old (i * me) me
    if aOp c = 7 then (acc.1 ++ toBytes 64 (ledgerAddCell m (aType c) (field data (i * se) se)), acc.2.1, acc.2.2)
    else if aOp c = 8 then
      let r := (unpackCell m).settle (aSat c)
      (acc.1 ++ toBytes 64 (if aClear c then 0 else packCell (unpackCell m)), acc.2.1 ||| r.2, acc.2.2 ++ toBytes 4 r.1)
    else
      let r := atomElt c m (field data (i * se) se)
      (acc.1 ++ toBytes me r.1, acc.2.1 ||| r.2, acc.2.2)) ([], 0, [])

/-- Performs a request whose line no cache holds. -/
def State.perform (s : State) (m : Nat) (r : Msg) (e : EccResult) : State :=
  let da := r.addr
  match r.op with
  | .write => ((s.memWrite da r.data r.poison).moverMark da).answer r .complete 0 [] false 0
  | .read =>
    let s := s.eccLine m da r.part e
    let bad := s.mem.anyPoison da r.len
    s.answer r .readData (if bad then St.memUe else 0) (s.memReads da r.len) bad 0
  | _ =>
    let s := s.eccLine m da r.part e
    let settle := decide (r.op = .ledgerSettle)
    if s.mem.anyPoison da r.len then
      let s := if r.poison then { s with mem := s.mem.markLines da r.len true } else s
      if settle then
        s.answer r .readData St.memUe ((List.range (r.len / 64)).flatMap (fun _ => toBytes 4 0x7FC00000)) false 0
      else s.answer r .complete St.memUe [] false 0
    else if r.poison then (({ s with mem := s.mem.markLines da r.len true }).moverMark da).answer r .complete 0 [] false 0
    else
      let x := atomBytes r.code (s.memReads da r.len) r.data r.len
      let s := (s.memWrite da x.1 false).moverMark da
      if settle then s.answer r .readData 0 x.2.2 false x.2.1 else s.answer r .complete 0 [] false x.2.1

/-- The directory begins to take a line back for an access from outside the caches (R526), or to reuse its entry: the owner is recalled,
sharers are invalidated for a write. -/
def State.takeBack (s : State) (line : Nat) (wr : Bool) : State :=
  let d := s.dirEnt line
  if d.st = 2 then (s.setDir line { d with st := 3, toAck := [d.owner] }).coh ⟨.recall, d.owner, line, 0⟩
  else if d.st = 1 ∧ wr then d.sharers.foldl (fun s n => s.coh ⟨.inv, n, line, 0⟩) (s.setDir line { d with st := 3, toAck := d.sharers })
  else s

/-- An access of the host block that may not be made yet: where a cache owns one of its lines, the directory begins to take that line back
(R526), and the access is made by a later command; else nothing happens. -/
def State.await (s : State) (p pa n : Nat) : Host.Outcome State Fault Refusal :=
  let owned (x : Nat × Nat × Nat) : Bool := match s.xlate p x.1 false with
    | some da => inControl da && decide ((s.dirEnt (ctrlLine da)).st = 2)
    | none => false
  match (linesOf pa n).find? owned with
  | some x => fin (s.takeBack (ctrlLine x.1) false)
  | none => stay s

/-- PATROL_SCRUB (R491, R530): one pass over the controller's memory. `corrected` lists the lines corrected and written back, `bad` those with
an uncorrectable error, by device address. -/
def execPatrolScrub (m : McId) (corrected : List Nat) (bad : List Nat) (s : State) : Host.Outcome State Fault Refusal :=
  if s.reg .mcScrubH m 0 = 0 then stay s
  else
    let s := (corrected.filter (fun a => decide (a < 2 ^ 40) && decide (ctlOf a = m))).foldl (fun s _ => s.ceFound m) s
    fin ((bad.filter (fun a => decide (a < 2 ^ 40) && decide (ctlOf a = m))).foldl (fun s a => s.ueFound m a 16) s)

/-! ### The tier movers -/

/-- The leaf entry of a partition page and its address, where it is a 2 MiB page. -/
def State.leaf2M (s : State) (p pa : Nat) : Option (Nat × Nat) :=
  let e1 := s.memNum (8192 * s.reg .partXlateBase 0 p + 8 * bits pa 30 10) 8
  if !(e1.testBit 0) || e1.testBit 1 then none
  else
    let a := 4096 * bits e1 12 28 + 8 * bits pa 21 9
    let e2 := s.memNum a 8
    if e2.testBit 0 then some (a, e2) else none

/-- The valid bit of the translator entry at `a`, which its first byte holds. -/
def State.validEntry (s : State) (a : Nat) : Bool := (s.memByte a).getLsbD 0

/-- Some translator entry of some partition maps a page that overlaps the device page at `da` (R514). -/
def State.mapped (s : State) (da : Nat) : Bool :=
  (List.range 16).any (fun p => decide (s.reg .partXlateEn 0 p = 1) && (List.range 1024).any (fun i =>
    let a1 := 8192 * s.reg .partXlateBase 0 p + 8 * i
    let e1 := s.memNum a1 8
    s.validEntry a1 && (if e1.testBit 1 then decide (bits e1 30 10 = da / 2 ^ 30)
      else (List.range 512).any (fun j =>
        let a2 := 4096 * bits e1 12 28 + 8 * j
        s.validEntry a2 && decide (bits (s.memNum a2 8) 21 19 = da / 2 ^ 21)))))

/-- The moves of R514 that are rejected, a busy mover aside. -/
def State.moveBad (s : State) (p src dst : Nat) : Bool :=
  decide (src % 2 ^ 21 ≠ 0) || decide (s.reg .partXlateEn 0 p = 0) || (s.leaf2M p src).isNone || decide (dst % 2 ^ 21 ≠ 0) || s.mapped dst

/-- Copies one line of the page, poisoned as poisoned (R518). -/
def State.copyLine (s : State) (m line : Nat) : State :=
  let v := s.mover m
  let a := 64 * line
  let psn := s.mem.poison.contains line
  let s := { s with mem := s.mem.write (v.dst + (a - v.src)) (s.memReads a 64) psn }
  if psn then s.bump .movePoisoned 0 m 1 else s

/-- A page's bytes and poison marks moved to another page. -/
def Memory.copyPage (mm : Memory) (src dst : Nat) : Memory :=
  let z := mm.zeroRange dst (2 ^ 21)
  { cells := (mm.cells.filter (fun x => decide (x.1 / 2 ^ 21 = src / 2 ^ 21))).foldl (fun t x => tabSet 0 (dst + x.1 % 2 ^ 21) x.2 t) z.cells,
    poison := (mm.poison.filter (fun l => decide (l / 32768 = src / 2 ^ 21))).foldl (fun t l => setAdd (dst / 64 + l % 32768) t) z.poison }

/-- The lines of a page, and the largest count that POISONED holds. -/
def pageLines : Nat := 32768
def poisonMax : Nat := 8191

/-- The mover's port counts the page's lines, read and written (R534). -/
def State.moveCount (s : State) (m n : Nat) : State := s.countLines Cls.mover m (2 * n)

/-- The device page that a partition page maps to. -/
def State.pageOf (s : State) (p pa : Nat) : Nat := ((s.leaf2M p pa).map (fun x => bits x.2 21 19 * 2 ^ 21)).getD 0

/-- Starts a move of partition `p`'s page at `pa` to device page `dst` on mover `m`; `pid` names the MIGRATE that asked. The copy takes the
page as it is at the start; every line written from then on is marked (Table 10-7). -/
def State.startMove (s : State) (m p pa dst : Nat) (pid : Option Nat) : State :=
  let src := s.pageOf p pa
  let n := (s.mem.poison.filter (fun l => decide (l / 32768 = src / 2 ^ 21))).length
  let s := { s with mem := s.mem.copyPage src dst }
  let s := s.setMover m { phase := 1, part := p, src := src, dst := dst, pa := pa, passes := 0, marked := [], held := [], pid := pid }
  let s := s.setReg .moveGo 0 m 1
  let s := s.setReg .moveCode 0 m 0
  let s := s.setReg .movePasses 0 m 0
  (s.setReg .movePoisoned 0 m (min n poisonMax)).moveCount m pageLines

/-- A recopy pass begins: the marked lines are copied again and unmarked. -/
def State.recopy (s : State) (m : Nat) : State :=
  let v := s.mover m
  let s := (v.marked.foldl (fun s ln => s.copyLine m ln) s).moveCount m v.marked.length
  (s.setMover m { v with phase := 2, marked := [], passes := v.passes + 1 }).setReg .movePasses 0 m (v.passes + 1)

/-- The errors that the code found in the source lines that a mover read (R488, R489): a line with an uncorrectable one goes to the destination
as poisoned (R518). -/
def State.moveErrs (s : State) (m : Nat) (ecc : List MemErr) : State :=
  (ecc.filter (fun e => decide (e.line / 32768 = (s.mover m).src / 2 ^ 21) && !(s.mem.poison.contains e.line))).foldl (fun s e =>
    let a := 64 * e.line
    let s := s.eccLine (ctlOf a) a (s.mover m).part (if e.ue then .uncorrectable else .corrected)
    if e.ue then s.copyLine m e.line else s) s

/-- MOVE_COPY_END (R515, Table 10-7): the copy or a recopy pass ends, its last line having been injected. A pass that ends with at most 64 marked
lines, or the fourth, is followed by the hold; otherwise another pass begins. -/
def execMoveCopyEnd (m : Met (Fin 2) MemErr) (s : State) : Host.Outcome State Fault Refusal :=
  let v := s.mover m.arg
  if (v.phase ≠ 1 ∧ v.phase ≠ 2) ∨ (s.bwPort Cls.mover m.arg).late ≠ 0 then stay s
  else if v.phase = 2 ∧ (v.marked.length ≤ 64 ∨ 4 ≤ v.passes) then
    let s := s.moveErrs m.arg m.errs
    fin (s.setMover m.arg { s.mover m.arg with phase := 3 })
  else if s.portOpen Cls.mover m.arg then fin ((s.moveErrs m.arg m.errs).recopy m.arg)
  else stay s

/-- The translated requests that still wait for the source page. -/
def State.pageBusy (s : State) (da : Nat) : Bool :=
  s.ms.queues.any (fun q => q.2.any (fun r => decide (r.msg.addr / 2 ^ 21 = da / 2 ^ 21)))

/-- The switch (R515, R517): the remaining marked lines are copied, the entry is rewritten, held accesses go to the destination, where
their wait begins, and DONE is set. -/
def State.switchMove (s : State) (m : Nat) : State :=
  let v := s.mover m
  let s := v.marked.foldl (fun s ln => s.copyLine m ln) s
  let s := match s.leaf2M v.part v.pa with
    | some (a, e) => s.memWrite a (toBytes 8 (putBits e 21 19 (v.dst / 2 ^ 21))) false
    | none => s
  let s := s.setMover m {}
  let s := (s.setReg .moveGo 0 m 0).setReg .moveDone 0 m 1
  v.held.foldl (fun s r => s.arriveReq r s.ms.now) s

/-! ### Telemetry and the boundaries -/

/-- The TELEM port writes the records that wait for it, in order, while it may (R545, R855); `n` bounds the number. -/
def State.drainTelem (s : State) : Nat → State
  | 0 => s
  | n + 1 => match s.ms.telem with
    | [] => s
    | r :: t =>
      if !(s.portOpen Cls.telem 0) || !(r.host || s.clearPa Cls.telem 0 16 r.addr 16) then s
      else
        let s := { s with ms := { s.ms with telem := t } }.countLines Cls.telem 0 1
        let s := if r.host then s.emit (.hostWrite r.addr r.data false) else (s.memWrite r.addr r.data false).moverMark r.addr
        State.drainTelem (s.count .kprTelemTail 0 0 1) n

/-- Every record that may be written is written. -/
def State.telemOut (s : State) : State := s.drainTelem s.ms.telem.length

/-- EPOCH_BOUNDARY (R56): after the window of the epoch has closed. `telemOk` is false where the write of the record fails (R856). -/
def execEpochBoundary (telemOk : Bool) (s : State) : Host.Outcome State Fault Refusal :=
  if s.pow.closed then fin (s.epochStep telemOk).telemOut else stay s

/-- WINDOW_BOUNDARY (R536 to R550, R554, R558): the ports' windows end, staged class fields come into effect, held ports go on. -/
def execWindowBoundary (s : State) : Host.Outcome State Fault Refusal :=
  let s := s.closePorts
  let s := { s with old := s.old.filter (fun kv => !(isBwrKey kv.1)) }
  let s := (s.count .bwrWindow 0 0 1).takeCaptured isBwrKey
  fin s.commitDone.drainPorts.telemOut

end Sys2Proof.Machine
end

