-- ==== Sys2Proof/Machine/Accum.lean ====
section
/-! DEFINITION. The accumulator sets (06_accumulation.md): entries, promotion and the numeric flags. -/

namespace Sys2Proof.Machine

/-- Sets numeric flags (Table 03-7). -/
def State.numFlags (s : State) (u fl : Nat) : State :=
  let one (s : State) (f : Fld) (b : Nat) : State := if fl &&& b ≠ 0 then s.setReg f u 0 1 else s
  let s := one (one (one (one s .numInv Nf.inv) .numNanin Nf.nanin) .numBlknan Nf.blknan) .numOvf Nf.ovf
  one (one (one (one s .numSatd Nf.satd) .numUnf Nf.unf) .numIflush Nf.iflush) .numIwrap Nf.iwrap

/-! ### Accumulator entries -/

/-- The place of entry `i` of array `a` of physical set `p`. -/
def accKey (p a i : Nat) : Nat := (p * 4 + a) * 8192 + i

/-- An entry: +0 where nothing has been promoted, undefined where a stopped decode left its array so (R173, R292). -/
def State.accGet (s : State) (u p a i : Nat) : AccEntry :=
  let c := s.core u
  match c.acc.find? (fun x => decide (x.1 = accKey p a i)) with
  | some x => x.2
  | none =>
    let g := tabGet 0 (p * 4 + a) c.accGen
    if g = 0 then AccEntry.zero else ⟨(Config.freeAcc u g (accKey p a i)).toNat, false⟩

/-- Writes an entry. -/
def State.accPut (s : State) (u p a i : Nat) (e : AccEntry) : State :=
  let c := s.core u
  s.setCore u { c with acc := tabInsert (accKey p a i) e (tabErase (accKey p a i) c.acc) }

/-- Leaves the entries of array `a` of set `p` undefined. -/
def State.accLose (s : State) (u p a : Nat) : State :=
  let c := s.core u
  let s := s.setCore u { c with acc := tabKeep (fun k => decide (k / 8192 ≠ p * 4 + a)) c.acc, accGen := tabSet 0 (p * 4 + a) (s.free + 1) c.accGen }
  { s with free := s.free + 1 }

/-- One promotion into an entry (Table 06-1). -/
def promote (h : HeldMma) (v : Nat) (g : Val) : Nat × Nat :=
  if h.peop = 0 then
    if isInt h.fmt then promoteInt v g.toInt else promoteFp h.comp h.sat v g
  else if h.treeop = 0 then promoteInt v g.toInt
  else (promoteBit h.treeop v g.toInt.toNat, 0)

/-- What an entry holds in the accumulator form of an MMA (Table 06-1): a plain FP32 entry holds a sum and no error term. DEDUCED, log entry 34:
every entry that an MMA with COMP 0 reaches loses its error term, so that R200 and R295 hold whether or not a group sum comes to it. -/
def HeldMma.form (h : HeldMma) (v : Nat) : Nat := if h.peop = 0 ∧ ¬ isInt h.fmt ∧ ¬ h.comp then v % 2 ^ 32 else v

/-- Applies what an MMA does to one entry of the live set, in promotion order (R198, R269, R278, R791). -/
def State.applyPromo (s : State) (u : Nat) (h : HeldMma) (p : Promo) : State :=
  let set := s.reg .accLive u 0
  let e := s.accGet u set p.array p.idx
  let e0 : AccEntry := ⟨h.form (p.start.getD e.v), p.poison || (e.poison && !p.fresh)⟩
  let r := p.sums.foldl (fun (a : Nat × Nat) g => let x := promote h a.1 g
                                                  (x.1, a.2 ||| x.2)) (e0.v, 0)
  (s.accPut u set p.array p.idx ⟨r.1, e0.poison⟩).numFlags u r.2

/-- Promotes everything that a started MMA has formed. -/
def State.applyMma (s : State) (u : Nat) (h : HeldMma) : State :=
  let s := h.promos.foldl (fun s p => s.applyPromo u h p) s
  h.undef.foldl (fun s a => s.accLose u (s.reg .accLive u 0) a) s

end Sys2Proof.Machine
end

