-- ==== Sys2Proof/Machine/Bank.lean ====
section
/-! DEFINITION. What a sluice bank holds (12_sluices.md): counts, control words and the waiters of each sluice. -/

namespace Sys2Proof.Machine

/-! ### The count and the control word (Table 12-1) -/

def State.slcCount (s : State) (i : Nat) : Nat := s.reg .sluiceCount 0 i
def State.slcCtl (s : State) (i : Nat) : Nat := s.reg .sluiceCtrl 0 i
def State.setCount (s : State) (i v : Nat) : State := s.setReg .sluiceCount 0 i v
def State.setCtl (s : State) (i v : Nat) : State := s.setReg .sluiceCtrl 0 i v
def cMode (c : Nat) : Nat := bits c 0 2
def cNotify (c : Nat) : Bool := c.testBit 2
def cGlobal (c : Nat) : Bool := c.testBit 3
def cScope (c : Nat) : Nat := bits c 4 3
def cArmed (c : Nat) : Bool := c.testBit 7
def cSent (c : Nat) : Bool := c.testBit 8
def bPhase (n : Nat) : Nat := bits n 16 32
def bExpect (n : Nat) : Nat := bits n 8 8
def bArrived (n : Nat) : Nat := bits n 0 8

/-- Sets a sluice's OVF and SLC_STATUS.OVF. -/
def State.slcOverflow (s : State) (i : Nat) : State := (s.setCtl i (putBits (s.slcCtl i) 9 1 1)).wr .slcOvf 1

/-- The sluice bank of a number (R562), as an island number. -/
def bankIsland (i : Nat) : Nat := 180 + i / 4096

/-! ### Waiters (R568, R574 to R576, R595) -/

/-- A waiter's condition holds. -/
def State.slcHolds (s : State) (i v : Nat) : Bool := decide (v ≤ s.slcCount i)

/-- The waiter records held, as SLC_WAITERS shows them. -/
def State.countWaiters (s : State) : State := s.wr .slcWaiters (s.waiters.filter (fun w => !w.taken)).length

/-- The wake of a waiter. -/
def State.sendWake (s : State) (w : Waiter) (code : Nat) : State :=
  s.send { op := .wake, srcChip := s.chip, src := bankIsland w.num, dstChip := w.chip, dst := w.core, dsub := w.wid, part := w.part,
           tag := w.wid, addr := w.num, arg := s.slcCount w.num, code := code }

/-- Tests the waiters of a sluice in order of registration (R574): in SEMAPHORE mode the line is released from its head (R568); in the other
modes every waiter whose condition holds. -/
def State.serveWaiters (s : State) (i : Nat) : State :=
  let mine := s.waiters.filter (fun w => decide (w.num = i) && !w.taken)
  let r := mine.foldl (fun (acc : State × Bool) w =>
    let t := acc.1
    if acc.2 || !(t.slcHolds i w.val) then (t, acc.2 || decide (cMode (t.slcCtl i) = 1))
    else if cMode (t.slcCtl i) = 1 then
      let t := t.setCount i (t.slcCount i - w.val)
      let t := { t with waiters := if w.chip = t.chip then t.waiters.map (fun x => if x = w then { x with taken := true } else x)
                                   else t.waiters.erase w }
      (t.sendWake w 0, false)
    else (({ t with waiters := t.waiters.erase w }).sendWake w 0, false)) (s, false)
  r.1.countWaiters

/-- An acquisition that was not delivered returns its v to the count, which saturates with OVF (R567, R597). -/
def State.giveBack (s : State) (i v : Nat) : State :=
  let x := s.slcCount i + v
  let s := s.setCount i (min x (2 ^ 48 - 1))
  if 2 ^ 48 ≤ x then s.slcOverflow i else s

/-- Removes the waiter records of a core, in the banks and on their way (R597): all, or those of some wait-table entries. An acquisition
whose wake has not been delivered returns its v to the count, and the waiters that stood behind are tested. -/
def State.dropWaiters (s : State) (u : Nat) (pick : Nat → Bool) : State :=
  let mine (w : Waiter) : Bool := decide (w.chip = s.chip) && decide (w.core = u) && pick w.wid
  let gone := s.waiters.filter mine
  let s := { s with waiters := s.waiters.filter (fun w => !(mine w)),
                    net := s.net.filter (fun m => !((decide (m.op = .waiter) && decide (m.src = u) && decide (m.srcChip = s.chip) && pick m.sub)
                      || (decide (m.op = .wake) && decide (m.dst = u) && decide (m.dstChip = s.chip) && pick m.sub))) }
  let s := (gone.filter (fun w => w.taken)).foldl (fun s w => s.giveBack w.num w.val) s
  ((gone.map (fun w => w.num)).dedup).foldl (fun s i => s.serveWaiters i) s

end Sys2Proof.Machine
end

