-- ==== Sys2Proof/Machine/Scratch.lean ====
section
/-! DEFINITION. The scratchpad (07_scratchpad.md): rows, words, poison, bank-pair power, ECC and scrubbing. -/

namespace Sys2Proof.Machine

/-- The bytes of a core's scratchpad (R317). -/
def spdBytes : Nat := 0xC0000

/-- A global-status event of a core: in the Keeper's log, or on STAT for the YZ2-KB block (Table 20-7 kind 4). -/
def State.coreEvent (s : State) (u bit blk off src : Nat) : State :=
  if u = 128 then s.emit (.kbStat (4 + bit * 16 + off * 2 ^ 24)) else s.gevent bit blk u off src

/-- An error record of a core: in the Keeper's log, or on STAT for the YZ2-KB block (Table 20-7 kind 5). -/
def State.coreRecord (s : State) (u : Nat) (r : ErrRec) : State :=
  if u = 128 then s.emit (.kbStat (5 + r.cls * 16 + r.addr % 2 ^ 40 * 2 ^ 24)) else s.errRecord { r with unit := u, part := s.partOf u }

/-- The state asked for a pair, and the state it is in (Table 07-3). -/
def State.pairAsked (s : State) (u p : Nat) : Nat := bits (s.reg .spdPairState u 0) (2 * p) 2
def State.pairIs (s : State) (u p : Nat) : Nat := bits (s.core u).pairAct (2 * p) 2

/-- A row's pair answers accesses: it is ON, ON is what was last asked, and it is not in transition (R330, R331). -/
def State.rowOn (s : State) (u row : Nat) : Bool :=
  let p := row / 192
  decide (s.pairAsked u p = 3) && decide (s.pairIs u p = 3) && !((s.core u).pairRun.any (fun x => decide (x.1 = p)))

/-- One byte as stored. -/
def State.spdByte (s : State) (u a : Nat) : Byte := tabGet 0 a (s.core u).spd

/-- One byte as an access reads it: zero where the pair is not ON (R330). -/
def State.spdRead (s : State) (u a : Nat) : Byte := if s.rowOn u (a / 512) then s.spdByte u a else 0

/-- `n` bytes from offset `a`. -/
def State.spdReads (s : State) (u a n : Nat) : Bytes := (List.range n).map (fun i => s.spdRead u (a + i))

/-- A little-endian number of `n` bytes. -/
def State.spdNum (s : State) (u a n : Nat) : Nat := ofBytes (s.spdReads u a n)

/-- The word that holds byte `a` is poisoned, as an access sees it. -/
def State.spdPoison (s : State) (u a : Nat) : Bool := s.rowOn u (a / 512) && (s.core u).spdPsn.contains (a / 8)

/-- Some word of [a, a + n) is poisoned. -/
def State.spdAnyPoison (s : State) (u a n : Nat) : Bool :=
  (s.core u).spdPsn.any (fun w => decide (a / 8 ≤ w) && decide (w * 8 < a + n) && s.rowOn u (w / 64))

/-- Some row of [a, a + n) is not ON. -/
def State.spdAnyOff (s : State) (u a n : Nat) : Bool :=
  decide (n ≠ 0) && (List.range ((a + n - 1) / 512 - a / 512 + 1)).any (fun i => !(s.rowOn u (a / 512 + i)))

/-- The status of an access to [a, a + n): SPD_OFF, then SPD_UE, else OK (R330, R341). -/
def State.spdStatus (s : State) (u a n : Nat) : Nat :=
  if s.spdAnyOff u a n then St.spdOff else if s.spdAnyPoison u a n then St.spdUe else St.ok

/-- Sets OFF_ACC where an access met a pair that is not ON (R330). -/
def State.offAcc (s : State) (u : Nat) (off : Bool) : State := if off then s.setReg .spdOffAcc u 0 1 else s

/-- The same for the access to [a, a + n). -/
def State.noteOff (s : State) (u a n : Nat) : State := s.offAcc u (s.spdAnyOff u a n)

/-- Writes bytes into the cells of a core, by position. -/
def putCells : List Host.Cell → Nat → Bytes → List Host.Cell
  | t, _, [] => t
  | t, a, b :: l => putCells (tabSet 0 a b t) (a + 1) l

/-- Writes bytes at offset `a`: discarded where the pair is not ON (R330). A word written in all its 8 bytes takes the poison mark given;
a word written in part keeps its mark, and gains the one given (R322). -/
def State.spdWrite (s : State) (u a : Nat) (l : Bytes) (poison : Bool) : State :=
  let s := s.noteOff u a l.length
  let c := s.core u
  let live := (List.range l.length).filter (fun i => s.rowOn u ((a + i) / 512))
  let cells := live.foldl (fun t i => tabSet 0 (a + i) (nth l i 0) t) c.spd
  let first := a / 8
  let words := (List.range ((a + l.length + 7) / 8 - first)).map (fun i => first + i)
  let psn := words.foldl (fun ps w =>
    if l.length = 0 ∨ ¬ s.rowOn u (w / 64) then ps
    else if poison then setAdd w ps
    else if a ≤ 8 * w ∧ 8 * w + 8 ≤ a + l.length then setDel w ps else ps) c.spdPsn
  s.setCore u { c with spd := cells, spdPsn := psn }

/-- Sets rows [r, r + n) to zero, poison cleared. -/
def Core.zeroRows (c : Core) (r n : Nat) : Core :=
  { c with spd := tabKeep (fun a => !(decide (512 * r ≤ a) && decide (a < 512 * (r + n)))) c.spd,
           spdPsn := c.spdPsn.filter (fun w => !(decide (64 * r ≤ w) && decide (w < 64 * (r + n)))) }

/-- Zero in one pair. -/
def Core.zeroPair (c : Core) (p : Nat) : Core := c.zeroRows (192 * p) 192

/-! ### Bank-pair power -/

/-- Asks for a new state of pair `p` (R331, R348): a transition to ON starts at once where the pair is not in transition; one to RETAIN or
OFF waits for PAIR_TRANSITION_START; a request behind a running transition waits for its end. The request that first leaves ON divides the
accesses issued before it from those after it. -/
def State.askPair (s : State) (u p st : Nat) : State :=
  let again := decide (s.pairAsked u p ≠ 3) && decide (st ≠ 3)
  let s := s.setReg .spdPairState u 0 (putBits (s.reg .spdPairState u 0) (2 * p) 2 st)
  let s := if again then s else s.setCore u { s.core u with pairReq := tabSet 0 p (s.core u).nextId (s.core u).pairReq }
  let c := s.core u
  let next := c.pairNext.filter (fun x => decide (x.1 ≠ p))
  if c.pairRun.any (fun x => decide (x.1 = p)) then s.setCore u { c with pairNext := next ++ [(p, st)] }
  else if s.pairIs u p = st then s.setCore u { c with pairNext := next }
  else if st = 3 then
    (s.setCore u { c with pairNext := next, pairRun := c.pairRun ++ [(p, st)] }).setReg .spdBusy u 0 (s.reg .spdBusy u 0 ||| 2 ^ p)
  else s.setCore u { c with pairNext := next ++ [(p, st)] }

/-- Asks for one state of every pair of a mask. -/
def State.askPairs (s : State) (u mask st : Nat) : State := (onesOf 8 mask).foldl (fun s p => s.askPair u p st) s

/-- The pairs that were asked for RETAIN or OFF after the instruction of number `id` was issued. -/
def State.askedSince (s : State) (u id : Nat) : List Nat :=
  (List.range 8).filter (fun p => decide (s.pairAsked u p ≠ 3) && decide (id < tabGet 0 p (s.core u).pairReq))

/-- The core as the accesses of the instruction of number `id` find it: a request that came after its issue does not yet count (R331). -/
def State.asIssued (s : State) (u id : Nat) : State :=
  match s.askedSince u id with
  | [] => s
  | ps => s.setReg .spdPairState u 0 (ps.foldl (fun v p => putBits v (2 * p) 2 3) (s.reg .spdPairState u 0))

/-- Runs the accesses of the instruction of number `id` (R331). -/
def State.underIssue (s : State) (u id : Nat) (f : State → State) : State :=
  match s.askedSince u id with
  | [] => f s
  | _ => (f (s.asIssued u id)).setReg .spdPairState u 0 (s.reg .spdPairState u 0)

/-- A scoreboard entry covers rows of a pair (R331). -/
def sbCovers (c : Core) (p : Nat) : Bool :=
  c.sb.any (fun e => (e.reads ++ e.writes).any (fun r => decide (r.1 < 192 * (p + 1)) && decide (192 * p ≤ r.2)))

/-- PAIR_TRANSITION_START (R331): a requested transition to RETAIN or OFF begins once nothing covers or reaches the pair. A write-back of the
scrubber that waits on it is made first. -/
def execPairTransitionStart (u : CoreId) (p : Fin 8) (s : State) : Host.Outcome State Fault Refusal :=
  let c := s.core u
  match c.pairNext.find? (fun x => decide (x.1 = p.val)) with
  | some x =>
    if c.pairRun.any (fun y => decide (y.1 = p.val)) ∨ sbCovers c p then stay s
    else fin ((s.setCore u { c with pairNext := c.pairNext.filter (fun y => decide (y.1 ≠ p.val)), pairRun := c.pairRun ++ [x],
                                     scrubWb := if c.scrubWb.any (fun r => decide (r / 192 = p.val)) then none else c.scrubWb }).setReg
      .spdBusy u 0 (s.reg .spdBusy u 0 ||| 2 ^ p.val))
  | none => stay s

/-- A pair's transition ends (R329): a pair that leaves OFF holds zero; a pair that is OFF has lost its contents. The next request begins. -/
def State.pairDone (s : State) (u p : Nat) : State :=
  let c := s.core u
  match c.pairRun.find? (fun x => decide (x.1 = p)) with
  | none => s
  | some x =>
    let fromOff := decide (bits c.pairAct (2 * p) 2 = 0)
    let c := { c with pairRun := c.pairRun.filter (fun y => decide (y.1 ≠ p)), pairAct := putBits c.pairAct (2 * p) 2 x.2 }
    let c := if fromOff || decide (x.2 = 0) then c.zeroPair p else c
    let s := (s.setCore u c).setReg .spdBusy u 0 (putBits (s.reg .spdBusy u 0) p 1 0)
    match c.pairNext.find? (fun y => decide (y.1 = p)) with
    | some y => if y.2 = 3 ∨ y.2 = x.2 then s.askPair u p y.2 else s
    | none => s

/-- PAIR_TRANSITION_DONE (R329, R332). -/
def execPairTransitionDone (u : CoreId) (p : Fin 8) (s : State) : Host.Outcome State Fault Refusal :=
  if (s.core u).pairRun.any (fun x => decide (x.1 = p.val)) then fin (s.pairDone u p) else stay s

/-- Every pair of a mask is set ON and holds zero at once: a launch clear (R334, R351), or a reset (Table 07-5). -/
def State.clearPairs (s : State) (u mask : Nat) : State :=
  (onesOf 8 mask).foldl (fun s p =>
    let c := s.core u
    let c := { c with pairRun := c.pairRun.filter (fun y => decide (y.1 ≠ p)), pairNext := c.pairNext.filter (fun y => decide (y.1 ≠ p)),
                      pairAct := putBits c.pairAct (2 * p) 2 3 }
    let s := s.setReg .spdPairState u 0 (putBits (s.reg .spdPairState u 0) (2 * p) 2 3)
    let s := s.setReg .spdBusy u 0 (putBits (s.reg .spdBusy u 0) p 1 0)
    s.setCore u (c.zeroPair p)) s

/-! ### ECC and scrubbing -/

/-- Logs a scratchpad error (R340, R341, R349). -/
def State.spdLog (s : State) (u : Nat) (e : EccErr) : State :=
  if !e.ue && decide (s.reg .spdLogValid u 0 = 1) && decide (s.reg .spdLogKind u 0 = 1) then s
  else
    let s := s.setReg .spdLogRow u 0 (e.word / 64)
    let s := s.setReg .spdLogWord u 0 (e.word % 64)
    let s := s.setReg .spdLogSyndrome u 0 e.syndrome.toNat
    let s := s.setReg .spdLogKind u 0 (b2n e.ue)
    s.setReg .spdLogValid u 0 1

/-- An error met by a read: a corrected one is counted and logged (R340); an uncorrectable one marks the word, sets UE and writes a POISONED
record (R341, R787). Words outside the scratchpad or in a pair that is not ON are not read. -/
def State.eccErr (s : State) (u : Nat) (e : EccErr) : State :=
  if decide (98304 ≤ e.word) || !(s.rowOn u (e.word / 64)) then s
  else if e.ue then
    let s := (s.setReg .spdUe u 0 1).spdLog u e
    let c := s.core u
    let s := s.setCore u { c with spdPsn := setAdd e.word c.spdPsn, ueTimes := c.ueTimes ++ [e.sec] }
    s.coreRecord u { cls := 1, source := 1, unit := u, code := St.spdUe, action := 1, addr := e.word / 64 + e.word % 64 * 2 ^ 11,
                     detail := e.syndrome.toNat }
  else
    let s := ((s.setReg .spdCe u 0 1).bump .spdCeCount u 0 1).spdLog u e
    let c := s.core u
    s.setCore u { c with ceTimes := c.ceTimes ++ [e.sec], corrected := c.corrected + 1 }

/-- The errors of a list that lie in the words of [a, a + n). -/
def eccAt (a n : Nat) (ecc : List EccErr) : List EccErr := ecc.filter (fun e => decide (a / 8 ≤ e.word) && decide (e.word * 8 < a + n))

/-- The errors that an operation's reads met, uncorrectable ones last so that the log holds them (R349). -/
def State.eccErrs (s : State) (u : Nat) (l : List EccErr) : State :=
  (l.filter (fun e => !e.ue) ++ l.filter (fun e => e.ue)).foldl (fun s e => s.eccErr u e) s

/-- The next ON row at or after `r` of the scrub pass (R343); `n` bounds the search. -/
def State.nextOnRow (s : State) (u : Nat) : Nat → Nat → Option Nat
  | 0, _ => none
  | n + 1, r => if s.rowOn u (r % 1536) then some (r % 1536) else s.nextOnRow u n (r + 1)

/-- SCRUB_READ (R342, R343, R347, R350): one row of an ON pair is read; a corrected word is written back unless an owner has written
the row since (`cancel`). -/
def execScrubRead (u : CoreId) (cancel : Bool) (ecc : List EccErr) (s : State) : Host.Outcome State Fault Refusal :=
  if s.reg .spdScrubInterval u 0 = 0 ∨ s.islandOff u then stay s
  else match s.nextOnRow u 1536 (s.core u).scrubRow with
    | none => stay s
    | some r =>
      let mine := ecc.filter (fun e => decide (e.word / 64 = r))
      let s := s.eccErrs u mine
      let c := s.core u
      fin (s.setCore u { c with scrubRow := (r + 1) % 1536, scrubWb := if mine.isEmpty || cancel then none else some r })

/-- SCRUB_LATE (R344). -/
def execScrubLate (u : CoreId) (s : State) : Host.Outcome State Fault Refusal :=
  if s.reg .spdScrubInterval u 0 = 0 then stay s else fin (s.setReg .spdScrubLate u 0 1)

/-- Events of the last `span` seconds reach a threshold (Table 17-3). -/
def reached (times : List Nat) (span n : Nat) : Bool :=
  let now := times.getLast?.getD 0
  decide (n ≤ (times.filter (fun t => decide (now < t + span))).length)

/-- A core's scratchpad errors ask for a fence: UE_FENCE within 24 h or CE_FENCE within 1 h (Table 17-3). The YZ2-KB block, which has no
KPR_FAULT_CFG, goes by its Reset values. -/
def State.fenceDue (s : State) (u cause : Nat) : Bool :=
  let c := s.core u
  if cause = 2 then reached c.ueTimes 86400 (if u = 128 then 2 else s.rd .kprUeFence)
  else if cause = 3 then reached c.ceTimes 3600 (if u = 128 then 1024 else s.rd .kprCeFence)
  else true

end Sys2Proof.Machine
end

