-- ==== Sys2Proof/Machine/Operands.lean ====
section
/-! DEFINITION. The sequencer (05_tensor_core.md, 08_tile_instructions.md): instruction words and their fields, scalar registers, effective
fields, what lets an instruction issue, statuses and the end of a task. -/

namespace Sys2Proof.Machine

/-! ### The program store and the fields of an instruction (R352) -/

/-- Program store word `i` of core `u` (R223). -/
def State.pword (s : State) (u i : Nat) : Nat :=
  let c := s.core u
  match c.pstore.find? (fun x => decide (x.1 = i)) with
  | some x => x.2
  | none => if c.psGen = 0 ∨ c.zeroed = true then 0 else (Config.freeProgram u c.psGen i).toNat

/-- Writes program store word `i`. -/
def State.setPword (s : State) (u i w : Nat) : State :=
  let c := s.core u
  s.setCore u { c with pstore := tabInsert i (w % 2 ^ 128) (tabErase i c.pstore) }

/-- Descriptor slot `i` (16 slots of 64 bytes). -/
def State.dslot (s : State) (u i : Nat) : Nat :=
  let c := s.core u
  match c.desc.find? (fun x => decide (x.1 = i)) with
  | some x => x.2
  | none => if c.dsGen = 0 ∨ c.zeroed = true then 0 else (Config.freeDesc u c.dsGen i).toNat

/-- Writes descriptor slot `i`. -/
def State.setDslot (s : State) (u i w : Nat) : State :=
  let c := s.core u
  s.setCore u { c with desc := tabInsert i (w % 2 ^ 512) (tabErase i c.desc) }

/-- Microcode word `i` (1,024 words of 4 bytes). -/
def State.uword (s : State) (u i : Nat) : Nat :=
  let c := s.core u
  match c.ucode.find? (fun x => decide (x.1 = i)) with
  | some x => x.2
  | none => if c.ucGen = 0 ∨ c.zeroed = true then 0 else (Config.freeUcode u c.ucGen i).toNat

/-- Writes microcode word `i`. -/
def State.setUword (s : State) (u i w : Nat) : State :=
  let c := s.core u
  s.setCore u { c with ucode := tabInsert i (w % 2 ^ 32) (tabErase i c.ucode) }

/-- The instruction that the program counter names. -/
def State.iw (s : State) (u : Nat) : Nat := s.pword u (s.pc u)

def fOpc (w : Nat) : Nat := bits w 0 8
def fRd (w : Nat) : Nat := bits w 8 5
def fRa (w : Nat) : Nat := bits w 13 5
def fRb (w : Nat) : Nat := bits w 18 5
def fImm (w : Nat) : Nat := bits w 64 64

/-- A scalar register, 64 bits: s0 reads 0 (R355). -/
def State.sreg (s : State) (u n : Nat) : Nat := if n = 0 then 0 else s.reg .coreSreg u n

/-- Writes a scalar register: a write to s0 is discarded (R355). -/
def State.setSreg (s : State) (u n v : Nat) : State := if n = 0 then s else s.setReg .coreSreg u n v

/-- A configuration word TCw (Tables 08-2, 08-3). -/
def State.tc (s : State) (u w : Nat) : Nat := s.reg .coreTc u w

/-- The fields of TC0 (Table 08-2). -/
def tShape (t : Nat) : Nat := bits t 0 2
def tFmt (t : Nat) : Nat := bits t 2 4
def tOfmt (t : Nat) : Nat := bits t 6 4
def tSat (t : Nat) : Bool := t.testBit 10
def tRnd (t : Nat) : Bool := t.testBit 11
def tComp (t : Nat) : Bool := t.testBit 12
def tGsel (t : Nat) : Nat := bits t 13 2
def tPeop (t : Nat) : Nat := bits t 15 3
def tTreeop (t : Nat) : Nat := bits t 18 3
def tCompact (t : Nat) : Bool := t.testBit 21
def tSpan (t : Nat) : Nat := bits t 22 3 + 1
def tSplit (t : Nat) : Nat := bits t 25 2
def tConv (t : Nat) : Bool := t.testBit 27
def tErrstop (t : Nat) : Bool := t.testBit 28

/-- The 64-bit sum of a field and an index register (R359); naming s0 leaves the field. -/
def State.idx (s : State) (u field r : Nat) : Nat := (field + s.sreg u r) % 2 ^ 64

/-! ### Issue -/

/-- A tile instruction, one that a dispatch queue takes (R225, Table 08-2): LDS, MMA, SWAP, DRAIN, DLOAD, ULOAD, COUNT, MERGE, DMA. The sequencer of a
throttled core holds it (R64). -/
def opTile (op : Nat) : Bool := decide (0x50 ≤ op) && decide (op ≤ 0x80)

/-- Core `u`'s sequencer can take its next step, and the instruction at its program counter has opcode `op`: it runs, in C0, is neither
fenced nor halted nor stopped by a status, has not run past the program store, and holds no tile instruction for its meter (R64, R265). -/
def State.canIssue (s : State) (u op : Nat) : Bool :=
  let c := s.core u
  s.runs u && !(s.fenced u) && decide (c.cstate = 0) && !c.stopping && !c.pcOver && decide (c.capture = none)
    && decide (s.reg .dbgHalted u 0 = 0) && decide (fOpc (s.iw u) = op) && !(opTile op && decide (u < 128) && s.throttled u)

/-- Core `u` goes on with what has started: it is in C0, not fenced, and no capture holds it. -/
def State.canFinish (s : State) (u : Nat) : Bool :=
  !(s.fenced u) && decide ((s.core u).cstate = 0) && decide ((s.core u).capture = none)

/-- Core `u` can start what waits in its dispatch queues: it is not halted either (R810). -/
def State.canStart (s : State) (u : Nat) : Bool := s.canFinish u && decide (s.reg .dbgHalted u 0 = 0)

/-- `dt` core cycles pass before an instruction completes its step (RDSR 0, counter event 0x01); how many of them a hold of it lasts (events 0x04,
0x05, 0x0B and 0x0D) is free. -/
def State.tick (s : State) (u dt : Nat) : State :=
  let c := s.core u
  ((s.setCore u { c with cycles := c.cycles + dt }).pmc u 1 dt).pmcFree u [4, 5, 0xB, 0xD] dt

/-- An instruction has issued: counters, the trace of a tile instruction, and the halt after a STEP (R810). A PC trigger may fire again. -/
def State.issued (s : State) (u : Nat) (tile : Bool) (queue : Nat) : State :=
  let w := s.iw u
  let s := s.pmc u 2 1
  let s := if tile then (s.pmc u 3 1).traceEv u 0 (fOpc w) queue else s
  let s := if (s.core u).fired && decide (s.reg .dbgTrigKind u 0 = 1) then s.setCore u { s.core u with fired := false } else s
  if (s.core u).stepOne then
    (s.setCore u { s.core u with stepOne := false }).setReg .dbgHalted u 0 1
  else s

/-- Moves the program counter on; past instruction 4,095 the sequencer runs off its store (R231). -/
def State.next (s : State) (u : Nat) : State :=
  if s.pc u = 4095 then s.setCore u { s.core u with pcOver := true } else s.setReg .corePc u 0 (s.pc u + 1)

/-- Jumps (R408). -/
def State.jump (s : State) (u target : Nat) : State := s.setReg .corePc u 0 target

/-! ### Statuses and the end of a task -/

/-- No posted SOP and no posted store is outstanding (R407, R411). -/
def Core.noPosted (c : Core) : Bool := c.posted.isEmpty && c.sb.all (fun e => !e.post)

/-- The hold of an instruction that has been accepted and is part-way through its effect: a QPUSH between its two cells, a TEST whose
answer travels. Such an instruction completes although its task is being stopped (R416, R466). -/
def Hold.started : Hold → Bool
  | .pushMid .. => true
  | .test _ => true
  | _ => false

/-- Every operation that a core started or posted is complete (R412). -/
def Core.quiet (c : Core) : Bool := c.xfers.isEmpty && c.heldMma.isEmpty && c.noPosted && !c.hold.started

/-- The numeric flags of a core, as a status entry's NUM byte orders them (Table 03-7). -/
def State.numBits (s : State) (u : Nat) : Nat :=
  s.reg .numInv u 0 + 2 * s.reg .numNanin u 0 + 4 * s.reg .numBlknan u 0 + 8 * s.reg .numOvf u 0 + 16 * s.reg .numSatd u 0
    + 32 * s.reg .numUnf u 0 + 64 * s.reg .numIflush u 0 + 128 * s.reg .numIwrap u 0

/-- A launch notes that the task of core `u` has ended: the held status and its program counter, the cycles and the numeric flags (R718, R719). -/
def Launch.noteEnd (l : Launch) (u status pc cycles num : Nat) : Launch :=
  if l.ended.any (fun e => decide (e.1 = u)) then l
  else { l with ended := l.ended ++ [(u, status, pc)], maxCyc := max l.maxCyc cycles, num := l.num ||| num }

/-- The task ends (R412, R416): the sequencer stops, its launch notes the end, its waiter records go (R597). -/
def State.endTask (s : State) (u : Nat) : State :=
  let c := s.core u
  let s := (s.setReg .coreRun u 0 0).setReg .coreHalted u 0 1
  let s := s.dropWaiters u (fun _ => true)
  let s := s.setCore u { s.core u with pcOver := false, hold := .none, posted := [], stopping := false, tasked := false, waits := [], launch := none }
  let code := if s.reg .tstatusValid u 0 = 1 then s.reg .tstatusCode u 0 else 0
  let pc := if s.reg .tstatusValid u 0 = 1 then s.reg .tstatusPc u 0 else s.pc u
  let s := { s with host := { s.host with launches := s.host.launches.map (fun l =>
    if l.cores.contains u && decide (c.launch = some l.lid) then l.noteEnd u code pc c.cycles (s.numBits u) else l) } }
  if u = 128 then s.emit (.kbStat (1 + s.reg .tstatusCode u 0 * 16 + s.reg .tstatusPc u 0 * 4096 + c.cycles % 2 ^ 40 * 2 ^ 24)) else s

/-- A stopped task ends once what it started is complete (R416). -/
def State.tryEnd (s : State) (u : Nat) : State :=
  let c := s.core u
  if c.stopping && c.quiet then s.endTask u else s

/-- Stops a task as R416 gives: nothing more issues; unstarted dispatch entries go, with their scoreboard and wait-table entries; a waiting
instruction is abandoned unless it has started; posted operations that ORD holds are never sent. With no SWAP left to wait for, the sums that a started MMA holds
behind one are promoted. -/
def State.stopTask (s : State) (u : Nat) : State :=
  let c := s.core u
  let gone := (c.qFeed ++ c.qDrain ++ c.qDma ++ c.qFront).map (fun d => d.id)
  let s := s.setCore u { c with
    stopping := true, qFeed := [], qDrain := [], qDma := [], qFront := [], waits := [], hold := if c.hold.started then c.hold else .none
    sb := c.sb.filter (fun e => !(gone.contains e.id))
    posted := c.posted.filter (fun p => !(p.ord.any (fun i => gone.contains i))) }
  let lost := (c.posted.filter (fun p => p.ord.any (fun i => gone.contains i))).map (fun p => p.tag)
  let s := { s with net := s.net.filter (fun m => !(decide (m.op = MsgOp.sop) && decide (m.src = u) && decide (m.srcChip = s.chip) && lost.contains m.tag)) }
  let s := s.dropWaiters u (fun _ => true)
  let s := s.setReg .accSwapPend u 0 0
  let held := (s.core u).heldMma
  let s := held.foldl (fun s h => s.applyMma u h) (s.setCore u { s.core u with heldMma := [] })
  s.tryEnd u

/-- The rank of the statuses that override the cores' own in a launch (R718). -/
def forcedRank (st : Nat) : Nat :=
  if st = St.flightLost then 4 else if st = St.timeout then 3 else if st = St.aborted then 2 else if st = 0 then 0 else 1

/-- A launch takes a forced status where none of its rank or higher stands. -/
def State.forceLaunch (s : State) (lid st : Nat) : State :=
  { s with host := { s.host with launches := s.host.launches.map (fun l =>
      if l.lid = lid ∧ forcedRank l.forced < forcedRank st then { l with forced := st } else l) } }

/-- Halts a running task as R416 gives; the launch that it belongs to takes the forced status. -/
def State.haltTask (s : State) (u st : Nat) : State :=
  let c := s.core u
  if !c.tasked then s
  else
    let s := match c.launch with
      | some l => if st = 0 then s else s.forceLaunch l st
      | none => s
    if c.stopping then s else s.stopTask u

/-- Holds a status in CORE_TSTATUS, the first of the task (R415), and stops the task where ERRSTOP is 1 (R416, R417). -/
def State.raise (s : State) (u code pc : Nat) : State :=
  if code = 0 then s
  else
    let s := if s.reg .tstatusValid u 0 = 1 then s
      else ((s.setReg .tstatusCode u 0 code).setReg .tstatusPc u 0 pc).setReg .tstatusValid u 0 1
    if tErrstop (s.tc u 0) && (s.core u).tasked && !(s.core u).stopping then s.stopTask u else s

/-- An instruction rejected at issue: its status, and no other effect (R11, R414). -/
def State.reject (s : State) (u code : Nat) : State :=
  let pc := s.pc u
  ((s.issued u false 0).next u).raise u code pc

/-- The status of the first check that fails, in the order listed (R831); 0 where none does. -/
def firstBad : List (Bool × Nat) → Nat
  | [] => 0
  | (b, c) :: t => if b then c else firstBad t

/-! ### Dispatch queues and the scoreboard -/

/-- Two row ranges overlap. -/
def rowsMeet (a b : Nat × Nat) : Bool := decide (a.1 ≤ b.2) && decide (b.1 ≤ a.2)

/-- Read and write ranges conflict with the scoreboard (R229). -/
def Core.conflict (c : Core) (rd wr : List (Nat × Nat)) : Bool :=
  c.sb.any (fun e => wr.any (fun w => (e.reads ++ e.writes).any (fun r => rowsMeet w r))
    || rd.any (fun r => e.writes.any (fun w => rowsMeet r w)))

/-- The rows of the bytes [a, a + n). -/
def rowsOf (a n : Nat) : Nat × Nat := (a / 512, (a + n - 1) / 512)

/-- Which dispatch queue a kind takes (Table 05-1): 0 feed, 1 drain, 2 DMA, 3 sparse front end. -/
def DispKind.queue : DispKind → Nat
  | .lds => 0
  | .mma => 0
  | .swap => 1
  | .drain => 1
  | .dma => 2
  | .dload => 3
  | .uload => 3
  | .count => 3
  | .merge => 3
  | .gate _ => 0

def Core.queue (c : Core) (q : Nat) : List Disp :=
  if q = 0 then c.qFeed else if q = 1 then c.qDrain else if q = 2 then c.qDma else c.qFront

def Core.setQueue (c : Core) (q : Nat) (l : List Disp) : Core :=
  if q = 0 then { c with qFeed := l } else if q = 1 then { c with qDrain := l }
  else if q = 2 then { c with qDma := l } else { c with qFront := l }

/-- Puts an entry at the back of queue `q` and records its ranges in the scoreboard under its number (R227). -/
def State.dispatch (s : State) (u q : Nat) (d : Disp) (rd wr : List (Nat × Nat)) : State :=
  let c := s.core u
  let c := { c.setQueue q (c.queue q ++ [d]) with nextId := c.nextId + 1 }
  s.setCore u (if rd.isEmpty && wr.isEmpty then c else { c with sb := c.sb ++ [⟨d.id, rd, wr, false⟩] })

/-- A narrow access records the rows it touches in the scoreboard under a number of its own (R227, R395); `post` marks a posted store. -/
def State.record (s : State) (u : Nat) (rd wr : List (Nat × Nat)) (post : Bool) : State :=
  let c := s.core u
  s.setCore u { c with sb := c.sb ++ [⟨c.nextId, rd, wr, post⟩], nextId := c.nextId + 1 }

/-- An instruction for queue `q` with these ranges is held (R226): the queue or the scoreboard is full, or it conflicts. -/
def Core.heldBy (c : Core) (q : Nat) (rd wr : List (Nat × Nat)) : Bool :=
  decide (16 ≤ (c.queue q).length) || decide (64 ≤ c.sb.length) || c.conflict rd wr

/-- The front entry of queue `q` where it can start: no GATE stands before it. -/
def State.front (s : State) (u q : Nat) (k : DispKind) : Option Disp :=
  if !(s.canStart u) then none
  else match (s.core u).queue q with
    | d :: _ => if d.kind = k then some d else none
    | [] => none

/-- The front entry leaves its queue in the cycle in which it starts (R226). -/
def State.popFront (s : State) (u q : Nat) : State :=
  let c := s.core u
  s.setCore u (c.setQueue q (c.queue q).tail)

/-- A tile instruction has completed with a status: it is traced, with a latency that the model leaves free, and the status is raised at its
program counter. -/
def State.completeAt (s : State) (u code pc : Nat) : State :=
  let s := s.traceEv u 1 code (Config.freeValue s.free).toNat
  ({ s with free := s.free + 1 }).raise u code pc

/-- The same for the entry that a dispatch queue held. -/
def State.complete (s : State) (u code : Nat) (d : Disp) : State := s.completeAt u code d.pc

/-- SCOREBOARD_FREE (R228, R407): the entry of an instruction whose last access to its rows is done. -/
def execScoreboardFree (u : CoreId) (id : Nat) (s : State) : Host.Outcome State Fault Refusal :=
  let c := s.core u
  let queued := (c.qFeed ++ c.qDrain ++ c.qDma ++ c.qFront).any (fun d => decide (d.id = id))
  let moving := c.xfers.any (fun x => decide (x.id = id) && !(decide (x.dir = 1) && x.todo.isEmpty))
  let pushing := match c.hold with
    | .pushMid i .. => decide (i = id)
    | _ => false
  if queued || moving || pushing || !(c.sb.any (fun e => decide (e.id = id))) then stay s
  else fin ((s.setCore u { c with sb := c.sb.filter (fun e => decide (e.id ≠ id)) }).tryEnd u)

end Sys2Proof.Machine
end

