-- ==== Sys2Proof/Machine/Swage.lean ====
section
/-! DEFINITION. Format descriptors and Swage decoding (04_sparse_operands.md): the layouts, descriptor microcode, what a decode reads
and where it stops. -/

namespace Sys2Proof.Machine

/-- The fields of a format descriptor (Table 04-2). -/
structure Desc where
  raw      : Nat
  layout   : Nat
  fmt      : Nat
  idx32    : Bool
  linek    : Bool
  bscale   : Bool
  rscale   : Bool
  nm       : Nat
  bsz      : Nat
  uentry   : Nat
  dstride  : Nat
  lines    : Nat
  len      : Nat
  valB     : Nat
  metaB    : Nat
  ptrB     : Nat
  scaleB   : Nat
  rscaleB  : Nat
  valLimit : Nat
deriving DecidableEq, Repr

/-- Reads the fields of Table 04-2. -/
def parseDesc (w : Nat) : Desc where
  raw := w
  layout := bits w 0 4
  fmt := bits w 8 8
  idx32 := w.testBit 16
  linek := w.testBit 17
  bscale := w.testBit 18
  rscale := w.testBit 19
  nm := bits w 24 2
  bsz := bits w 26 2
  uentry := bits w 32 16
  dstride := bits w 48 16
  lines := bits w 64 32
  len := bits w 96 32
  valB := bits w 128 32
  metaB := bits w 160 32
  ptrB := bits w 192 32
  scaleB := bits w 224 32
  rscaleB := bits w 256 32
  valLimit := bits w 288 32

/-- N and M of an N:M pattern, and log2 M. -/
def Desc.nOf (d : Desc) : Nat := if d.nm = 1 then 1 else if d.nm = 3 then 4 else 2
def Desc.mOf (d : Desc) : Nat := if d.nm = 2 then 8 else if d.nm = 3 then 16 else 4
def Desc.mLog (d : Desc) : Nat := if d.nm = 2 then 3 else if d.nm = 3 then 4 else 2

/-- The block size B of a block-sparse descriptor. -/
def Desc.bOf (d : Desc) : Nat := 8 * 2 ^ d.bsz

/-- Bytes of one packed dense line. -/
def Desc.packed (d : Desc) : Nat := ceilDiv (d.len * eltBits d.fmt) 8

/-- MSTRIDE of an N:M descriptor. -/
def Desc.mstride (d : Desc) : Nat := 4 * ceilDiv (d.len / d.mOf * d.nOf * d.mLog) 32

/-- A scratchpad base that R161 accepts. -/
def baseOk (a : Nat) : Bool := decide (a % 8 = 0) && decide (a < spdBytes)

/-- The checks of R161 to R166: true where the descriptor is bad. A reserved format has no line size to check (R111 refuses it). -/
def Desc.bad (d : Desc) : Bool :=
  !([d.valB, d.metaB, d.ptrB, d.scaleB, d.rscaleB, d.valLimit].all baseOk)
  || !(decide (d.layout ≤ 5) || decide (d.layout = 15))
  || decide (bits d.raw 4 4 ≠ 0) || decide (bits d.raw 20 4 ≠ 0) || decide (bits d.raw 28 4 ≠ 0) || decide (d.bsz = 3)
  || decide (bits d.raw 320 192 ≠ 0)
  || decide (d.lines = 0) || decide (2 ^ 24 < d.lines) || decide (d.len = 0) || decide (2 ^ 24 < d.len)
  || (decide (d.layout = 15) && decide (1024 ≤ d.uentry))
  || (decide (d.layout = 0) && (decide (d.dstride % 8 ≠ 0) || decide (d.fmt ≤ 10) && decide (d.dstride < d.packed)))
  || (decide (d.layout = 2) && !d.idx32 && decide (65536 < d.len))
  || (decide (d.layout = 3) && decide (d.len % d.mOf ≠ 0))
  || (decide (d.layout = 4) && (decide (d.lines % d.bOf ≠ 0) || decide (d.len % d.bOf ≠ 0) || decide (65536 < d.len / d.bOf)))

/-- BSCALE on a format that takes no block scale (R120). -/
def Desc.scaleRole (d : Desc) : Bool := d.bscale && !(maybeScaled d.fmt)

/-- A descriptor slot as it stands. -/
def State.descOf (s : State) (u slot : Nat) : Desc := parseDesc (s.dslot u slot)

/-! ### Reading the arrays of an operand -/

/-- An element that a decode delivers: its position, encoding, block code and poison mark. -/
structure DElt where
  pos    : Nat
  enc    : Nat
  scale  : Nat
  poison : Bool
deriving DecidableEq, Repr

/-- `n` bytes of metadata or pointers at byte offset `a`: beyond the scratchpad SPD_RANGE (R912), poisoned SPD_UE (R173). -/
def State.mget (s : State) (u a n : Nat) : Except Nat Nat :=
  if spdBytes < a + n then .error St.spdRange
  else if s.spdAnyPoison u a n then .error St.spdUe
  else .ok (s.spdNum u a n)

/-- `w` bits of metadata from bit `b` of byte offset `base`. -/
def State.mbits (s : State) (u base b w : Nat) : Except Nat Nat :=
  let a := base + b / 8
  let n := (b % 8 + w + 7) / 8
  (s.mget u a n).map (fun v => bits v (b % 8) w)

/-- An element's encoding at bit `b` from byte offset `base`, with its mark. -/
def State.eltAt (s : State) (u base b w : Nat) : Except Nat (Nat × Bool) :=
  let a := base + b / 8
  let n := (b % 8 + w + 7) / 8
  if spdBytes < a + n then .error St.spdRange
  else .ok (bits (s.spdNum u a n) (b % 8) w, s.spdAnyPoison u a n)

/-- The block code of the element at line `l`, position `p` (R167), 127 where the descriptor has none. -/
def State.scaleAt (s : State) (u : Nat) (d : Desc) (l p : Nat) : Except Nat (Nat × Bool) :=
  if !d.bscale then .ok (127, false)
  else
    let a := if d.linek then d.scaleB + l / 32 * d.len + p else d.scaleB + p / 32 * d.lines + l
    if spdBytes ≤ a then .error St.spdRange else .ok (s.spdNum u a 1, s.spdPoison u a)

/-- The element at line `l`, position `p`, whose encoding is element `i` from VAL_BASE. -/
def State.eltOf (s : State) (u : Nat) (d : Desc) (l p i : Nat) : Except Nat DElt :=
  match s.eltAt u d.valB (i * eltBits d.fmt) (eltBits d.fmt), s.scaleAt u d l p with
  | .ok x, .ok c => .ok ⟨p, x.1, c.1, x.2 || c.2⟩
  | .error e, _ => .error e
  | .ok _, .error e => .error e

/-- What Swage drops (R155 to R159, R910, R911). -/
def DElt.zero (e : DElt) (fmt : Nat) : Bool := zeroCode fmt e.enc && decide (e.scale ≠ 255) && !e.poison

/-- What a decode of one line has found so far: its elements, the data error at the lowest position (R174) as (position, status), and whether
the decode can read no further. -/
structure DAcc where
  els  : List DElt := []
  err  : Option (Nat × Nat) := none
  stop : Bool := false
deriving DecidableEq, Repr

/-- Notes a data error: of several the one at the lowest position stands (R174). -/
def DAcc.note (a : DAcc) (p st : Nat) : DAcc :=
  match a.err with
  | some e => if e.1 ≤ p then a else { a with err := some (p, st) }
  | none => { a with err := some (p, st) }

/-- The decode cannot go on: what it reads next is unknown. -/
def DAcc.halt (a : DAcc) (p st : Nat) : DAcc := { a.note p st with stop := true }

/-- A line's elements, or the position and status of its data error. -/
abbrev LineRes (α : Type) : Type := Except (Nat × Nat) α

def DAcc.res (a : DAcc) : LineRes (List DElt) :=
  match a.err with
  | some e => .error e
  | none => .ok a.els

/-- The last position found. -/
def DAcc.here (a : DAcc) : Nat := match a.els.getLast? with
  | some x => x.pos
  | none => 0

/-- Goes on with a value that a read gave, unless the decode has halted. -/
def DAcc.bind {α : Type} (a : DAcc) (p : Nat) (x : Except Nat α) (f : α → DAcc) : DAcc :=
  if a.stop then a else match x with
    | .error e => a.halt p e
    | .ok v => f v

/-- Adds the element at position `p` with value index `i`, unless it counts as zero; `asc` applies the order test to what remains (R171). A
position of LEN or more is not present (R172). -/
def State.addElt (s : State) (u : Nat) (d : Desc) (l p i : Nat) (asc : Bool) (acc : DAcc) : DAcc :=
  if d.len ≤ p then acc.note p St.sparseRange
  else match s.eltOf u d l p i with
    | .error e => acc.note p e
    | .ok e =>
      if e.zero d.fmt then acc
      else if asc && acc.els.any (fun x => decide (p ≤ x.pos)) then acc.note p St.sparseOrder
      else { acc with els := acc.els ++ [e] }

/-- Two neighbouring 32-bit pointer entries (R169). -/
def State.ptrs (s : State) (u : Nat) (d : Desc) (i : Nat) : Except Nat (Nat × Nat) :=
  match s.mget u (d.ptrB + 4 * i) 4, s.mget u (d.ptrB + 4 * i + 4) 4 with
  | .ok a, .ok b => if b < a then .error St.sparsePtr else .ok (a, b)
  | .error e, _ => .error e
  | _, .error e => .error e

/-- Two neighbouring 64-bit pointer entries: value offsets and record offsets, each half compared (R169). -/
def State.ptrs64 (s : State) (u : Nat) (d : Desc) (i : Nat) : Except Nat ((Nat × Nat) × (Nat × Nat)) :=
  match s.mget u (d.ptrB + 8 * i) 8, s.mget u (d.ptrB + 8 * i + 8) 8 with
  | .ok a, .ok b =>
    if b % 2 ^ 32 < a % 2 ^ 32 ∨ b / 2 ^ 32 < a / 2 ^ 32 then .error St.sparsePtr else .ok ((a % 2 ^ 32, b % 2 ^ 32), (a / 2 ^ 32, b / 2 ^ 32))
  | .error e, _ => .error e
  | _, .error e => .error e

/-- A value offset that R170 refuses. -/
def offBad (fmt off : Nat) : Bool :=
  (decide (eltBits fmt = 4) && decide (off % 2 ≠ 0)) || (decide (eltBits fmt = 6) && decide (off % 4 ≠ 0))

/-- An offset that makes every later access fall beyond the scratchpad: bounds the entries a line can visit. -/
def entryBound : Nat := 0xC0001

/-- Bitmap. DEDUCED, log entry 91: R170 tests the value offset that a line starts from, here and in the other pointer layouts; the entry that
ends the line is tested where the next line is decoded. -/
def State.decBitmap (s : State) (u : Nat) (d : Desc) (l : Nat) : DAcc :=
  DAcc.bind {} 0 (s.ptrs u d l) (fun pp =>
    if offBad d.fmt pp.1 then DAcc.halt {} 0 St.sparsePtr
    else
      let cnt := ceilDiv d.len 32
      ((List.range cnt).foldl (fun (st : DAcc × Nat) j =>
        if st.1.stop then st
        else match s.mget u (d.metaB + 4 * (l * cnt + j)) 4 with
          | .error e => (st.1.halt (32 * j) e, st.2)
          | .ok m => (onesOf 32 m).foldl (fun (st : DAcc × Nat) i => (s.addElt u d l (32 * j + i) st.2 false st.1, st.2 + 1)) st) (({} : DAcc), pp.1)).1)

/-- Coordinate list. -/
def State.decCoord (s : State) (u : Nat) (d : Desc) (l : Nat) : DAcc :=
  DAcc.bind {} 0 (s.ptrs u d l) (fun pp =>
    if offBad d.fmt pp.1 then DAcc.halt {} 0 St.sparsePtr
    else
      let w := if d.idx32 then 4 else 2
      (List.range (min (pp.2 - pp.1) entryBound)).foldl (fun (acc : DAcc) i =>
        acc.bind acc.here (s.mget u (d.metaB + w * (pp.1 + i)) w) (fun p => s.addElt u d l p (pp.1 + i) true acc)) {})

/-- N:M: slot positions must ascend within a group whatever their values (R171). -/
def State.decNm (s : State) (u : Nat) (d : Desc) (l : Nat) : DAcc :=
  let per := d.len / d.mOf * d.nOf
  ((List.range per).foldl (fun (st : DAcc × Nat) i =>
    let g := i / d.nOf * d.mOf
    if st.1.stop then st
    else match s.mbits u (d.metaB + l * d.mstride) (i * d.mLog) d.mLog with
      | .error e => (st.1.halt g e, st.2)
      | .ok q =>
        if i % d.nOf ≠ 0 ∧ q ≤ st.2 then (st.1.note (g + q) St.sparseOrder, st.2)
        else (s.addElt u d l (g + q) (l * per + i) false st.1, q)) (({} : DAcc), 0)).1

/-- Block-sparse: block positions must ascend whatever their values. -/
def State.decBlock (s : State) (u : Nat) (d : Desc) (l : Nat) : DAcc :=
  let b := d.bOf
  DAcc.bind {} 0 (s.ptrs u d (l / b)) (fun pp =>
    ((List.range (min (pp.2 - pp.1) entryBound)).foldl (fun (st : DAcc × Option Nat) i =>
      let k := pp.1 + i
      if st.1.stop then st
      else match s.mget u (d.metaB + 2 * k) 2 with
        | .error e => (st.1.halt (st.2.getD 0 * b) e, st.2)
        | .ok bp =>
          if d.len ≤ bp * b then (st.1.note (bp * b) St.sparseRange, st.2)
          else if st.2.any (fun x => decide (bp ≤ x)) then (st.1.note (bp * b) St.sparseOrder, st.2)
          else ((List.range b).foldl (fun acc c => s.addElt u d l (bp * b + c) (k * b * b + l % b * b + c) false acc) st.1, some bp)) (({} : DAcc), none)).1)

/-- Run-length. -/
def State.decRun (s : State) (u : Nat) (d : Desc) (l : Nat) : DAcc :=
  DAcc.bind {} 0 (s.ptrs64 u d l) (fun pp =>
    if offBad d.fmt pp.1.1 then DAcc.halt {} 0 St.sparsePtr
    else
      ((List.range (min (pp.2.2 - pp.2.1) entryBound)).foldl (fun (st : DAcc × Nat × Nat) i =>
        if st.1.stop then st
        else match s.mget u (d.metaB + 2 * (pp.2.1 + i)) 2 with
          | .error e => (st.1.halt st.2.1 e, st.2)
          | .ok w =>
            let c := st.2.1 + bits w 0 12
            let n := bits w 12 4
            ((List.range n).foldl (fun acc k => s.addElt u d l (c + k) (st.2.2 + k) false acc) st.1, c + n, st.2.2 + n)) (({} : DAcc), 0, pp.1.1)).1)

/-- The registers of the microcode engine: program word, C, V, T, L and the bit reader; and whether ENDL has been reached. -/
structure UcSt where
  pc  : Nat
  c   : Nat
  v   : Nat
  t   : Nat
  l   : Nat
  b   : Nat
  acc : DAcc
  fin : Bool := false
deriving DecidableEq, Repr

/-- Marks `n` positions from `c` present with values from `v`; the range test ends a longer run. -/
def State.ucEmit (s : State) (u : Nat) (d : Desc) (line c v n : Nat) (acc : DAcc) : DAcc :=
  (List.range (min n (d.len - c + 1))).foldl (fun acc i => s.addElt u d line (c + i) (v + i) true acc) acc

/-- The engine halts with a status. -/
def UcSt.halt (r : UcSt) (st : Nat) : UcSt := { r with acc := r.acc.halt r.c st }

/-- One microinstruction (Table 04-3, R176). -/
def State.ucStep (s : State) (u : Nat) (d : Desc) (line : Nat) (r : UcSt) : UcSt :=
  if 1024 ≤ r.pc then r.halt St.ucodeBad
  else
    let w := s.uword u r.pc
    let imm := bits w 0 16
    let target := bits w 16 10
    let opd := if w.testBit 26 then r.t else imm
    let n := bits w 0 6
    let r' := { r with pc := r.pc + 1 }
    match bits w 27 5 with
    | 0x01 =>
      if n = 0 ∨ 32 < n then r.halt St.ucodeBad
      else match s.mbits u d.metaB r.b n with
        | .error e => r.halt e
        | .ok v => { r' with t := v, b := r.b + n }
    | 0x02 => { r' with c := r.c + opd }
    | 0x03 => { r' with c := r.c + opd, v := r.v + opd, acc := s.ucEmit u d line r.c r.v opd r.acc }
    | 0x04 =>
      if n = 0 ∨ 32 < n then r.halt St.ucodeBad
      else
        let x := (onesOf n r.t).foldl (fun (st : DAcc × Nat) i => (s.addElt u d line (r.c + i) st.2 true st.1, st.2 + 1)) (r.acc, r.v)
        { r' with c := r.c + n, v := x.2, acc := x.1 }
    | 0x05 => { r' with c := r.t + 1, v := r.v + 1, acc := s.addElt u d line r.t r.v true r.acc }
    | 0x06 => { r' with v := r.v + opd }
    | 0x07 => { r' with l := opd }
    | 0x08 => if r.l ≠ 0 then { r with pc := target, l := r.l - 1 } else r'
    | 0x09 => if r.t = 0 then { r with pc := target } else r'
    | 0x0A => if d.len ≤ r.c then { r with pc := target } else r'
    | 0x0B => { r with pc := target }
    | 0x0C => if imm = 8 ∨ imm = 16 ∨ imm = 32 then { r' with b := ceilDiv r.b imm * imm } else r.halt St.ucodeBad
    | 0x0D => { r with fin := true }
    | _ => r.halt St.ucodeBad

/-- Runs the microcode of one line for at most `fuel` microinstructions (R177). -/
def State.ucRun (s : State) (u : Nat) (d : Desc) (line : Nat) : Nat → UcSt → DAcc
  | 0, r => r.acc.halt r.c St.ucodeBad
  | fuel + 1, r =>
    let r := s.ucStep u d line r
    if r.fin || r.acc.stop then r.acc else s.ucRun u d line fuel r

/-- Microcode. -/
def State.decUcode (s : State) (u : Nat) (d : Desc) (l : Nat) : DAcc :=
  DAcc.bind {} 0 (s.ptrs64 u d l) (fun pp =>
    if offBad d.fmt pp.1.1 then DAcc.halt {} 0 St.sparsePtr
    else s.ucRun u d l 65536 { pc := d.uentry, c := 0, v := pp.1.1, t := 0, l := 0, b := pp.2.1, acc := {} })

/-- Positions [p0, p0 + n) of a dense line, zeros included. -/
def State.denseElts (s : State) (u : Nat) (d : Desc) (l p0 n : Nat) : DAcc :=
  (List.range (min n (d.len - p0))).foldl (fun (acc : DAcc) i =>
    let p := p0 + i
    match s.eltAt u (d.valB + l * d.dstride) (p * eltBits d.fmt) (eltBits d.fmt), s.scaleAt u d l p with
    | .ok x, .ok c => { acc with els := acc.els ++ [⟨p, x.1, c.1, x.2 || c.2⟩] }
    | .error e, _ => acc.note p e
    | _, .error e => acc.note p e) {}

/-- The elements of line `l` at positions [p0, p0 + n): of a dense line every element, of a compressed line those that are present and do
not count as zero, the whole line being decoded. -/
def State.decodeLine (s : State) (u : Nat) (d : Desc) (l p0 n : Nat) : LineRes (List DElt) :=
  let win (x : DAcc) : LineRes (List DElt) :=
    x.res.map (fun es => es.filter (fun e => decide (p0 ≤ e.pos) && decide (e.pos < p0 + n)))
  match d.layout with
  | 0 => (s.denseElts u d l p0 n).res
  | 1 => win (s.decBitmap u d l)
  | 2 => win (s.decCoord u d l)
  | 3 => win (s.decNm u d l)
  | 4 => win (s.decBlock u d l)
  | 5 => win (s.decRun u d l)
  | _ => win (s.decUcode u d l)

/-- Lines decoded in the order given, which is ascending so that the lowest line's error is the one named (R174): each line with its
elements, or the line and status of the stop. -/
def State.decodeLines (s : State) (u : Nat) (d : Desc) (p0 n : Nat) : List Nat → Except (Nat × Nat) (List (Nat × List DElt))
  | [] => .ok []
  | l :: t =>
    match s.decodeLine u d l p0 n with
    | .error e => .error (l, e.2)
    | .ok es =>
      match s.decodeLines u d p0 n t with
      | .error e => .error e
      | .ok r => .ok ((l, es) :: r)

/-! ### Scratchpad ranges for the scoreboard (R227) -/

/-- The rows of bytes [a, b), none where there are no such bytes in the scratchpad. -/
def byteRows (a b : Nat) : List (Nat × Nat) :=
  if b ≤ a ∨ spdBytes ≤ a then [] else [rowsOf a (min b spdBytes - a)]

/-- The rows that an operand's lines [l0, l0 + nl), positions [p0, p0 + n), are read from: the arrays its descriptor names, values and
metadata of a compressed layout taken between the pointer entries as they stand. -/
def State.opRows (s : State) (u : Nat) (d : Desc) (l0 nl p0 n : Nat) : List (Nat × Nat) :=
  let w := eltBits d.fmt
  let le := l0 + nl
  let p32 (i : Nat) : Nat := s.spdNum u (d.ptrB + 4 * i) 4
  let p64 (i : Nat) : Nat := s.spdNum u (d.ptrB + 8 * i) 8
  let vals (a b : Nat) := byteRows (d.valB + a * w / 8) (d.valB + ceilDiv (b * w) 8)
  let scale := if !d.bscale then []
    else if d.linek then byteRows (d.scaleB + l0 / 32 * d.len + p0) (d.scaleB + (le - 1) / 32 * d.len + p0 + n)
    else byteRows (d.scaleB + p0 / 32 * d.lines + l0) (d.scaleB + (p0 + n - 1) / 32 * d.lines + le)
  let b := d.bOf
  let main := match d.layout with
    | 0 => byteRows (d.valB + l0 * d.dstride + p0 * w / 8) (d.valB + (le - 1) * d.dstride + ceilDiv ((p0 + n) * w) 8)
    | 1 => let c := ceilDiv d.len 32
           byteRows (d.ptrB + 4 * l0) (d.ptrB + 4 * le + 4) ++ byteRows (d.metaB + 4 * l0 * c) (d.metaB + 4 * le * c) ++ vals (p32 l0) (p32 le)
    | 2 => let k := if d.idx32 then 4 else 2
           byteRows (d.ptrB + 4 * l0) (d.ptrB + 4 * le + 4) ++ byteRows (d.metaB + k * p32 l0) (d.metaB + k * p32 le) ++ vals (p32 l0) (p32 le)
    | 3 => let per := d.len / d.mOf * d.nOf
           byteRows (d.metaB + l0 * d.mstride) (d.metaB + le * d.mstride) ++ vals (l0 * per) (le * per)
    | 4 => let i := l0 / b
           let j := (le - 1) / b + 1
           byteRows (d.ptrB + 4 * i) (d.ptrB + 4 * j + 4) ++ byteRows (d.metaB + 2 * p32 i) (d.metaB + 2 * p32 j)
             ++ vals (p32 i * b * b) (p32 j * b * b)
    | 5 => byteRows (d.ptrB + 8 * l0) (d.ptrB + 8 * le + 8)
             ++ byteRows (d.metaB + 2 * (p64 l0 / 2 ^ 32)) (d.metaB + 2 * (p64 le / 2 ^ 32)) ++ vals (p64 l0 % 2 ^ 32) (p64 le % 2 ^ 32)
    | _ => byteRows (d.ptrB + 8 * l0) (d.ptrB + 8 * le + 8)
             ++ byteRows (d.metaB + p64 l0 / 2 ^ 32 / 8) (d.metaB + ceilDiv (p64 le / 2 ^ 32) 8) ++ vals (p64 l0 % 2 ^ 32) (p64 le % 2 ^ 32)
  main ++ scale

/-! ### Status of the latest failure (Table 04-6) -/

/-- SWG_STATUS notes a decode or drain that failed. -/
def State.swgFail (s : State) (u code slot line : Nat) : State :=
  let s := (s.setReg .swgCode u 0 code).setReg .swgErr u 0 1
  (s.setReg .swgSlot u 0 slot).setReg .swgLine u 0 line

/-! ### Issue of an instruction that reads descriptors -/

/-- A DLOAD of one of these slots, or a ULOAD where microcode is run, that has been issued and is not complete (R380). -/
def Core.loadPending (c : Core) (slots : List Nat) (ucode : Bool) : Bool :=
  c.qFront.any (fun d => (decide (d.kind = .dload) && slots.contains (bits d.word 24 4)) || (decide (d.kind = .uload) && ucode))

/-- What an instruction copies when it issues (R366): the fields of Table 08-8 and its effective index values. -/
def State.mkDisp (s : State) (u : Nat) (k : DispKind) (ea eb xc xt : Nat) (descs : List Nat) (r : Option SetRec) : Disp :=
  ⟨(s.core u).nextId, k, s.iw u, s.pc u, ea, eb, xc, xt, s.tc u 0, s.tc u 1, s.tc u 2, descs, r⟩

/-- Group 2 of Table 18-5 for a scratchpad offset that must be a multiple of `al` (R360). -/
def offChecks (a al : Nat) : List (Bool × Nat) := [(decide (spdBytes ≤ a), St.spdRange), (decide (a % al ≠ 0), St.spdAlign)]

/-- Wheel pattern 1 gives no Swage/Seam slot (R328). -/
def State.noSlot6 (s : State) (u : Nat) : Bool := decide (s.reg .spdPattern u 0 = 1)

/-- Issues an accepted tile instruction into queue `q`, or leaves it held (R226). -/
def State.issueTile (s : State) (u dt q : Nat) (d : Disp) (rd wr : List (Nat × Nat)) : State :=
  (((s.tick u dt).issued u true q).dispatch u q d rd wr).next u

end Sys2Proof.Machine
end

