-- ==== Sys2Proof/Machine/Dma.lean ====
section
/-! DEFINITION. The DMA engines and the DMA instruction (10_memory_tiers.md Tables 10-3 to 10-5, 08_tile_instructions.md Table 08-6). -/

namespace Sys2Proof.Machine

/-! ### The descriptor (Table 10-3) -/

/-- Bytes [i, i + n) of a descriptor held as a number. -/
def dF (d i n : Nat) : Nat := bits d (8 * i) (8 * n)
def dKind (d : Nat) : Nat := bits d 0 2
def dEsize (d : Nat) : Nat := bits d 2 2
def dAop (d : Nat) : Nat := bits d 8 4
def dType (d : Nat) : Nat := bits d 12 3
def dSpd (d : Nat) : Nat := dF d 4 4
/-- SRC and DST are 48-bit system addresses; bits [63:48] of their bytes are not part of one. -/
def dSrc (d : Nat) : Nat := dF d 8 6
def dDst (d : Nat) : Nat := dF d 16 6
/-- C0 to C4. -/
def dC (d i : Nat) : Nat := if i = 0 then dF d 24 4 else dF d (26 + 2 * i) 2
/-- S1 to S4. -/
def dS (d i : Nat) : Int := sext 40 (dF d (31 + 5 * i) 5)
def dIdx (d : Nat) : Nat := dF d 56 4

/-- The operation word of the transfer's atomic requests. -/
def dCode (d : Nat) : Nat := dAop d + dType d * 16 + b2n (d.testBit 15) * 128 + b2n (d.testBit 17) * 256 + b2n (d.testBit 16) * 512

/-- Memory and scratchpad bytes of an element of an atomic transfer. -/
def dMe (d : Nat) : Nat := memElt (dAop d) (dType d)
def dSe (d : Nat) : Nat := spdElt (dAop d) (dType d)

/-- Scratchpad bytes of one contiguous run. -/
def dRun (d : Nat) : Nat := if dAop d = 0 then dC d 0 + 1 else (dC d 0 + 1) / dMe d * dSe d

/-- Scratchpad bytes of the contiguous side of a STRIDED or GATHER transfer. -/
def dTotal (d : Nat) : Nat := (dC d 1 + 1) * (dC d 2 + 1) * (dC d 3 + 1) * (dC d 4 + 1) * dRun d

/-- The rules of R492 and Table 10-4, then R500; `lo` and `hi` bound the declared rows in bytes. -/
def descCheck (d dir lo hi : Nat) : Nat :=
  let ix := dIdx d
  let ixEnd := ix + 4 * (dC d 1 + 1)
  firstBad [
    (decide (bits d 4 4 ≠ 0) || decide (bits d 18 6 ≠ 0) || decide (dF d 3 1 ≠ 0) || decide (dF d 60 4 ≠ 0), St.dmaDesc),
    (decide (dKind d = 3) || decide (dEsize d = 3) || decide (9 ≤ dAop d) || decide (6 ≤ dType d), St.dmaDesc),
    (decide (dSpd d % 8 ≠ 0) || decide (spdBytes ≤ dSpd d), St.dmaDesc),
    (decide (dKind d = 1) && (decide (dC d 2 ≠ 0) || decide (dC d 3 ≠ 0) || decide (dC d 4 ≠ 0) || decide (ix % 4 ≠ 0)
      || decide (ix < lo) || decide (hi < ixEnd) || (decide (ix < dSpd d + dTotal d) && decide (dSpd d < ixEnd))), St.dmaDesc),
    (decide (dKind d = 2) && (decide ((dC d 0 + 1) % 2 ^ dEsize d ≠ 0) || decide (dC d 3 ≠ 0) || decide (dC d 4 ≠ 0)
      || decide (dAop d ≠ 0)), St.dmaDesc),
    (decide (dAop d ≠ 0) && !(atomListed (dAop d) dir (dType d)), St.atomBad)]

/-- A system address plus a displacement, in 48 bits. -/
def sysAdd (a : Nat) (o : Int) : Nat := wrapN 48 ((a : Int) + o)

/-- One run of the memory side cut at 64-byte lines (R495): each request's system address, length, and offset in the run. -/
def cutRun (a n : Nat) : List (Nat × Nat × Nat) := linesOf a n

/-- The runs of a STRIDED or GATHER transfer in run order, each with its memory address and its scratchpad offset; as many as can touch the
scratchpad, and one more. -/
def State.dmaRuns (s : State) (u d dir : Nat) : List (Nat × Nat) :=
  let base := if dir = 0 then dSrc d else dDst d
  let n := min ((dC d 1 + 1) * (dC d 2 + 1) * (dC d 3 + 1) * (dC d 4 + 1)) (spdBytes / max 1 (dRun d) + 2)
  (List.range n).map (fun k =>
    if dKind d = 1 then (sysAdd base ((s.spdNum u (dIdx d + 4 * k) 4 : Int) * dS d 1), dSpd d + k * dRun d)
    else
      let c1 := dC d 1 + 1
      let c2 := dC d 2 + 1
      let c3 := dC d 3 + 1
      (sysAdd base ((k % c1 : Nat) * dS d 1 + (k / c1 % c2 : Nat) * dS d 2 + (k / (c1 * c2) % c3 : Nat) * dS d 3
        + (k / (c1 * c2 * c3) : Nat) * dS d 4), dSpd d + k * dRun d))

/-- A request of a transfer before it is numbered: address, length, pieces, and whether its run breaks R501. -/
abbrev RawReq := Nat × Nat × List (Nat × Nat × Nat × Nat) × Bool

/-- The requests of a STRIDED or GATHER transfer. Each run of an atomic transfer must be aligned to its elements and cover whole ones (R501). -/
def State.dmaLinear (s : State) (u d dir : Nat) : List RawReq :=
  let lim := if dAop d = 0 then min (dC d 0 + 1) (spdBytes + 64) else min (dC d 0 + 1) ((spdBytes / dSe d + 1) * dMe d)
  (s.dmaRuns u d dir).flatMap (fun r => (cutRun r.1 lim).map (fun x =>
    (x.1 % 2 ^ 48, x.2.1,
      if dAop d = 0 then [(0, r.2 + x.2.2, x.2.1, x.2.1)]
      else [(0, r.2 + x.2.2 / dMe d * dSe d, x.2.1, ceilDiv x.2.1 (dMe d) * dSe d)],
      decide (dAop d ≠ 0) && (decide (r.1 % dMe d ≠ 0) || decide ((dC d 0 + 1) % dMe d ≠ 0)))))

/-- The requests of a TRANSPOSE transfer: its rows of memory one after the other, each byte with its own place in the scratchpad. -/
def dmaTranspose (d dir : Nat) : List RawReq :=
  let base := if dir = 0 then dSrc d else dDst d
  let e : Nat := 2 ^ dEsize d
  let nr := dC d 1 + 1
  let blk := nr * (dC d 0 + 1)
  let lim := min (dC d 0 + 1) ((spdBytes / (nr * e) + 2) * e)
  (List.range (min (dC d 2 + 1) (spdBytes / blk + 2))).flatMap (fun (i2 : Nat) =>
    (List.range (min nr (spdBytes / e + 2))).flatMap (fun (r : Nat) =>
      (cutRun (sysAdd base ((r : Int) * dS d 1 + (i2 : Int) * dS d 2)) lim).map (fun x =>
        (x.1 % 2 ^ 48, x.2.1, (List.range x.2.1).map (fun (j : Nat) =>
          let o : Nat := x.2.2 + j
          (j, dSpd d + i2 * blk + (o / e * nr + r) * e + o % e, 1, 1)), false))))

/-- The requests of a transfer in run order. -/
def State.dmaReqs (s : State) (u d dir : Nat) : List DmaReq :=
  let l := if dKind d = 2 then dmaTranspose d dir else s.dmaLinear u d dir
  l.zipIdx.map (fun x => ⟨x.2, x.1.1, x.1.2.1, x.1.2.2.1, x.1.2.2.2⟩)

/-! ### Issue -/

/-- The partition in which a core's requests are applied: its owner's, or the number that CORE_KB_CFG gives a YZ2-KB block; 16 for none. -/
def State.corePart (s : State) (u : Nat) : Nat := if u = 128 then s.reg .kbPart u 0 else (s.partOf u).getD 16

/-- A sluice of a partition's enabled range (R564); the YZ2-KB block's own range is that of CORE_KB_CFG (Table 20-16). -/
def State.inSluices (s : State) (p i : Nat) : Bool :=
  decide (p < 16) && decide (s.reg .slcPartEn 0 p = 1) && decide (s.reg .slcPartBase 0 p ≤ i)
    && decide (i < s.reg .slcPartBase 0 p + s.reg .slcPartSize 0 p)
def State.ownSluice (s : State) (u i : Nat) : Bool :=
  if u = 128 then decide (s.reg .kbSlcBase u 0 ≤ i) && decide (i < s.reg .kbSlcBase u 0 + s.reg .kbSlcSize u 0)
  else s.inSluices (s.corePart u) i

/-- A chip of the system that a route reaches (R484). -/
def State.chipUp (s : State) (c : Nat) : Bool :=
  decide (c < s.chips) && (decide (c = s.chip) || (s.reg .klkReach 0 (c / 64)).testBit (c % 64))

/-- Records a failing request (R498). -/
def DmaXfer.failAtN (x : DmaXfer) (n code : Nat) : DmaXfer :=
  if code = 0 then x else if x.fail = 0 ∨ n < x.failAt then { x with fail := code, failAt := n } else x

/-- A core's transfer on an engine. -/
def Core.xfer (c : Core) (e : Nat) : Option DmaXfer := c.xfers.find? (fun x => decide (x.eng = e))
def State.setXfer (s : State) (u : Nat) (x : DmaXfer) : State :=
  let c := s.core u
  s.setCore u { c with xfers := c.xfers.map (fun y => if y.eng = x.eng then x else y) }

/-- The destination stop of a memory request on this chip: its controller's, where it translates. -/
def State.memStop (s : State) (p pa : Nat) (wr : Bool) : Nat := 188 + ((s.xlate p pa wr).map ctlOf).getD 0

/-- The message of a request of a transfer: the read, the write with its data, or the atomic. -/
def State.dmaMsg (s : State) (u : Nat) (x : DmaXfer) (r : DmaReq) (tag : Nat) : Msg :=
  let p := s.corePart u
  let ao := dAop x.desc
  let op := if ao = 0 then (if x.dir = 0 then MsgOp.read else MsgOp.write)
    else if ao = 7 then .ledgerAdd else if ao = 8 then .ledgerSettle else .atomic
  let chip := r.addr / 2 ^ 40
  let pa := r.addr % 2 ^ 40
  let bytes : Bytes := if x.dir = 0 then [] else r.pieces.flatMap (fun q => s.spdReads u q.2.1 q.2.2.2)
  let psn := decide (x.dir = 1) && r.pieces.any (fun q => s.spdAnyPoison u q.2.1 q.2.2.2)
  { op := op, srcChip := s.chip, src := u, sub := x.eng, dstChip := chip,
    dst := if chip = s.chip then s.memStop p pa op.writes else 208, part := p, flight := if p < 16 then s.flightOf p else 0,
    tag := tag, seq := r.n, addr := pa, len := r.len, code := dCode x.desc, data := bytes, poison := psn }

/-- The part of a piece whose scratchpad side lies in [lo, hi): whole bytes, or whole elements of `me` bytes in memory and `se` in the
scratchpad. -/
def cutPiece (ao me se lo hi : Nat) (q : Nat × Nat × Nat × Nat) : Option (Nat × Nat × Nat × Nat) :=
  if ao = 0 then
    let a := max q.2.1 lo
    let b := min (q.2.1 + q.2.2.2) hi
    if b ≤ a then none else some (q.1 + (a - q.2.1), a, b - a, b - a)
  else
    let i := ceilDiv (lo - q.2.1) se
    let j := min (q.2.2.2 / se) ((hi - q.2.1) / se)
    if j ≤ i then none else some (q.1 + i * me, q.2.1 + i * se, (j - i) * me, (j - i) * se)

/-- Groups pieces that follow one another in memory. -/
def groupPieces : List (Nat × Nat × Nat × Nat) → List (List (Nat × Nat × Nat × Nat))
  | [] => []
  | q :: t => match groupPieces t with
    | (p :: g) :: l => if q.1 + q.2.2.1 = p.1 then (q :: p :: g) :: l else [q] :: (p :: g) :: l
    | l => [q] :: l

/-- A request of its own for a group of pieces, whose offsets count from its first byte. -/
def DmaReq.part (r : DmaReq) (g : List (Nat × Nat × Nat × Nat)) : DmaReq :=
  match g with
  | [] => r
  | p :: _ => { r with addr := (r.addr + p.1) % 2 ^ 48, len := sumOf g (fun q => q.2.2.1), pieces := g.map (fun q => (q.1 - p.1, q.2)) }

/-- What is left of a request when its scratchpad accesses outside the declared rows [lo, hi) are not made (R388): a read brings the bytes
inside them; a write or an atomic reaches only the memory that those inside name. -/
def DmaReq.trim (r : DmaReq) (d dir lo hi : Nat) : List DmaReq :=
  let inside := r.pieces.filterMap (cutPiece (dAop d) (dMe d) (dSe d) lo hi)
  if inside = r.pieces ∨ r.skew = true then [r]
  else if inside.isEmpty then []
  else if dir = 0 ∧ dAop d = 0 then [{ r with pieces := inside }]
  else (groupPieces inside).map r.part

/-- A request reaches outside the declared rows. -/
def DmaReq.outside (r : DmaReq) (lo hi : Nat) : Bool := r.pieces.any (fun q => decide (q.2.1 < lo) || decide (hi < q.2.1 + q.2.2.2))

/-- Sends requests of a transfer while fewer than 64 are outstanding (R496); `n` bounds the number looked at. A request that fails before it is
sent records its status: R501, R484, and for what it reads R330 and Table 17-2. -/
def State.dmaIssue (s : State) (u e : Nat) : Nat → State
  | 0 => s
  | n + 1 =>
    match (s.core u).xfer e with
    | none => s
    | some x =>
      if 64 ≤ x.out.length then s
      else match x.todo with
        | [] => s
        | r :: t =>
          let x := { x with todo := t }
          if r.skew then State.dmaIssue (s.setXfer u (x.failAtN r.n St.dmaAlign)) u e n
          else if !(s.chipUp (r.addr / 2 ^ 40)) then State.dmaIssue (s.setXfer u (x.failAtN r.n St.memNochip)) u e n
          else
            let (tag, s) := s.fresh
            let src := if x.dir = 1 then r.pieces.foldl (fun st q => if st = 0 then s.spdStatus u q.2.1 q.2.2.2 else st) 0 else 0
            let x := { x.failAtN r.n src with out := x.out ++ [(tag, r)] }
            let s := if x.dir = 1 then r.pieces.foldl (fun s q => s.noteOff u q.2.1 q.2.2.2) s else s
            let m := s.dmaMsg u x r tag
            let s := s.setXfer u x
            State.dmaIssue (if u = 128 then s.send m else s.inject Cls.core (2 * u + e) m) u e n

/-- DMA (R386, R387): its checks in the order of Table 18-5, its rows in the scoreboard. -/
def execDma (u : CoreId) (dt : Nat) (s : State) : Host.Outcome State Fault Refusal :=
  if !(s.canIssue u 0x80) then stay s
  else
    let w := s.iw u
    let desc := s.idx u (bits w 27 20) (fRa w)
    let row0 := s.idx u (bits w 47 11) (fRb w)
    let nr := bits w 58 11 + 1
    let rows := [(row0, row0 + nr - 1)]
    let descRow := byteRows desc (desc + 64)
    let rd := if w.testBit 26 then rows ++ descRow else descRow
    let wr := if w.testBit 26 then [] else rows
    if (s.core u).heldBy 2 rd wr then stay s
    else
      let num := bits w 70 14
      let bad := firstBad ([(decide (bits w 24 2 = 3), St.opBad)] ++ offChecks desc 64
        ++ [(decide (1536 < row0 + nr), St.dmaRange), (w.testBit 69 && !(s.ownSluice u num), St.slcBad)])
      if bad ≠ 0 then fin ((s.tick u dt).reject u bad)
      else fin (s.issueTile u dt 2 (s.mkDisp u .dma desc row0 nr 0 [] none) rd wr)

/-- Engine `e` takes the transfer at the front of the DMA queue and reads its descriptor; `ecc` lists the errors of its scratchpad reads. A
descriptor that cannot be used ends the transfer with its status and no access; what lies outside the declared rows is cut away (R388). -/
def State.doDma (s : State) (u : Nat) (d : Disp) (e : Nat) (ecc : List EccErr) : State :=
  let dir := b2n (d.word.testBit 26)
  let lo := 512 * d.eb
  let hi := 512 * (d.eb + d.xc)
  let s := (s.popFront u 2).eccErrs u ecc
  let st := s.spdStatus u d.ea 64
  let s := s.noteOff u d.ea 64
  let desc := s.spdNum u d.ea 64
  let idx := decide (st = 0) && decide (dKind desc = 1) && decide (descCheck desc dir lo hi = 0)
  let ist := if idx then s.spdStatus u (dIdx desc) (4 * (dC desc 1 + 1)) else 0
  let s := if idx then s.noteOff u (dIdx desc) (4 * (dC desc 1 + 1)) else s
  let bad := if st ≠ 0 then st else if descCheck desc dir lo hi ≠ 0 then descCheck desc dir lo hi else ist
  let reqs := if bad = 0 then s.dmaReqs u desc dir else []
  let x : DmaXfer := { id := d.id, eng := e, pc := d.pc, dir := dir, sig := d.word.testBit 69, sluice := bits d.word 70 14, desc := desc,
                       todo := reqs.flatMap (fun r => r.trim desc dir lo hi), out := [], fail := bad, failAt := 0 }
  let x := match reqs.find? (fun r => r.outside lo hi) with
    | some r => x.failAtN r.n St.dmaRange
    | none => x
  let c := s.core u
  ((s.setCore u { c with xfers := c.xfers ++ [x] }).setReg .dmaBusy u e 1).dmaIssue u e (x.todo.length + 1)

/-- DMA_START (R389, R492): a free engine takes the transfer. -/
def execDmaStart (u : CoreId) (ecc : List EccErr) (s : State) : Host.Outcome State Fault Refusal :=
  match s.front u 2 .dma with
  | none => stay s
  | some d =>
    let want := bits d.word 24 2
    let free (e : Nat) : Bool := ((s.core u).xfer e).isNone
    let eng := if want = 2 then (if free 0 then some 0 else if free 1 then some 1 else none) else if free want then some want else none
    match eng with
    | none => stay s
    | some e => fin (s.underIssue u d.id (fun s => s.doDma u d e ecc))

/-! ### Answers -/

/-- The transfer of a core that has a request outstanding under `tag`. -/
def Core.xferOf (c : Core) (tag : Nat) : Option (DmaXfer × DmaReq) :=
  c.xfers.findSome? (fun x => (x.out.find? (fun o => decide (o.1 = tag))).map (fun o => (x, o.2)))

/-- Writes what a request brought to the scratchpad; what comes of DMA_XLATE is zero (R497). -/
def State.dmaFill (s : State) (u : Nat) (x : DmaXfer) (r : DmaReq) (data : Bytes) (poison : Bool) : State :=
  if dAop x.desc ≠ 0 then
    match r.pieces with
    | q :: _ => s.spdWrite u q.2.1 (sliceBytes data 0 q.2.2.2) poison
    | [] => s
  else r.pieces.foldl (fun s q => s.spdWrite u q.2.1 (sliceBytes data q.1 q.2.2.1) poison) s

/-- An answer to request `r` of transfer `x` of core `u` (R497, R498, R505): `status` is its own; the engine sends on. -/
def State.takeAnswer (s : State) (u : Nat) (x : DmaXfer) (r : DmaReq) (tag status : Nat) (data : Bytes) (poison : Bool) (events : Nat) : State :=
  let off := decide (x.dir = 0) && r.pieces.any (fun q => s.spdAnyOff u q.2.1 q.2.2.2)
  let fill := decide (x.dir = 0) && (!data.isEmpty || decide (status = St.dmaXlate))
  let s := if fill then s.dmaFill u x r data poison else s
  let x := { (x.failAtN r.n status).failAtN r.n (if fill && off then St.spdOff else 0) with out := x.out.filter (fun o => decide (o.1 ≠ tag)) }
  let s := (s.setXfer u x).setReg .dmaNum u x.eng (s.reg .dmaNum u x.eng ||| events)
  let moved := if status = 0 ∨ status = St.memUe then sumOf r.pieces (fun q => q.2.2.2) else 0
  let s := (s.count .dmaBytes u x.eng moved).pmc u 0xF moved
  s.dmaIssue u x.eng (x.todo.length + 1)

/-- An answer that reaches core `u` for the transfer that has a request outstanding under `tag`. -/
def State.dmaAnswer (s : State) (u tag status : Nat) (data : Bytes) (poison : Bool) (events : Nat) : State :=
  match (s.core u).xferOf tag with
  | none => s
  | some (x, r) => s.underIssue u x.id (fun s => s.takeAnswer u x r tag status data poison events)

/-- The OP codes of Table 13-5. -/
def MsgOp.byte : MsgOp → Nat
  | .read => 0x01
  | .write => 0x02
  | .atomic => 0x03
  | .readData => 0x11
  | .complete => 0x12
  | .credit => 0x13
  | .nack => 0x14
  | .slcAck => 0x15
  | .flush => 0x16
  | .sop => 0x21
  | .waiter => 0x21
  | .wake => 0x22
  | .treeArrive => 0x23
  | .treeRelease => 0x24
  | .ledgerAdd => 0x31
  | .ledgerSettle => 0x32
  | .item => 0x41
  | .paceTime => 0x51
  | .rewrite => 0x52
  | .keeper => 0x53

/-- The 64-bit header of an answer on the YZ2-KB block's MRS and SIN ports (R869): status, TAG, OP and numeric flags; the other bits are 0. -/
def Msg.header64 (m : Msg) (status : Nat) : Nat :=
  status % 256 + m.tag % 65536 * 2 ^ 8 + m.op.byte * 2 ^ 24 + m.events % 16 * 2 ^ 32

/-- The YZ2-KB block takes an answer: on the MRS port of the engine whose request it answers, else on SIN (Table 20-3). -/
def State.kbTake (s : State) (m : Msg) (status : Nat) : State :=
  if m.dst ≠ 128 then s
  else match (s.core 128).xferOf m.tag with
    | some (x, _) => { s with kb := if x.eng = 0 then { s.kb with mrs0 := m.header64 status } else { s.kb with mrs1 := m.header64 status } }
    | none => { s with kb := { s.kb with sin := m.header64 status } }

/-- READ_DATA (R489): read data reaches its requester. -/
def execReadData (k : Nat) (s : State) : Host.Outcome State Fault Refusal :=
  match s.arrival .readData k with
  | some m =>
    -- data from another chip comes in units of 16 bytes (Table 13-4)
    let skip := if m.srcChip = s.chip then 0
      else match (s.core m.dst).xferOf m.tag with
        | some (x, r) => if dAop x.desc = 0 then r.addr % 16 else 0
        | none => 0
    let st := if m.poison then St.memUe else m.code
    fin (((s.take k).kbTake m st).dmaAnswer m.dst m.tag st (m.data.drop skip) m.poison m.events)
  | none => stay s

/-- COMPLETE (R505): a completion reaches its requester with its status and events. -/
def execComplete (k : Nat) (s : State) : Host.Outcome State Fault Refusal :=
  match s.arrival .complete k with
  | some m => fin (((s.take k).kbTake m m.code).dmaAnswer m.dst m.tag m.code m.data m.poison m.events)
  | none => stay s

/-- A SIGNAL(+n) sent to a sluice of this chip by a unit of partition `p` (Table 12-2). -/
def State.signal (s : State) (src p num n : Nat) : State :=
  let (tag, s) := s.fresh
  s.send { op := .sop, srcChip := s.chip, src := src, dstChip := s.chip, dst := bankIsland num, part := p,
           flight := if p < 16 then s.flightOf p else 0, tag := tag, addr := num, code := 0, arg := n }

/-- DMA_COMPLETE (R390, R391, R498): a transfer with nothing left to send or to wait for completes. -/
def execDmaComplete (u : CoreId) (e : Fin 2) (s : State) : Host.Outcome State Fault Refusal :=
  match (s.core u).xfer e with
  | none => stay s
  | some x =>
    if !(x.todo.isEmpty && x.out.isEmpty) then stay s
    else
      let c := s.core u
      let s := s.setCore u { c with xfers := c.xfers.filter (fun y => decide (y.eng ≠ e.val)) }
      let s := s.setReg .dmaBusy u e 0
      let s := if x.fail = 0 then s else s.setReg .dmaCode u e x.fail
      let s := if x.sig then s.signal u (s.corePart u) x.sluice 1 else s
      fin ((s.completeAt u x.fail x.pc).tryEnd u)

end Sys2Proof.Machine
end

