-- ==== Sys2Proof/Machine/Scalar.lean ====
section
/-! DEFINITION. Scalar and control instructions (08_tile_instructions.md, Tables 08-1 and 08-9). An instruction command names the core and the
core cycles `dt` since its sequencer's last step; where the core cannot issue, or its next instruction has another opcode, nothing
happens. -/

namespace Sys2Proof.Machine

/-- An instruction that only writes one scalar register. -/
def State.scalarDone (s : State) (u dt rd v : Nat) : State :=
  ((((s.tick u dt).issued u false 0).setSreg u rd (v % 2 ^ 64)).next u)

/-- An instruction that writes nothing. -/
def State.plainDone (s : State) (u dt : Nat) : State := ((s.tick u dt).issued u false 0).next u

/-- A register value as a signed number. -/
def sgn (x : Nat) : Int := sext 64 x

/-! ### ALU operations (R357): arguments and results are 64-bit values -/

def aluAdd (a b : Nat) : Nat := (a + b) % 2 ^ 64
def aluSub (a b : Nat) : Nat := (a + 2 ^ 64 - b % 2 ^ 64) % 2 ^ 64
def aluAnd (a b : Nat) : Nat := a &&& b
def aluOr (a b : Nat) : Nat := a ||| b
def aluXor (a b : Nat) : Nat := a ^^^ b
/-- A shift uses the low 6 bits of its amount. -/
def aluSll (a b : Nat) : Nat := (a * 2 ^ (b % 64)) % 2 ^ 64
def aluSrl (a b : Nat) : Nat := a / 2 ^ (b % 64)
def aluSra (a b : Nat) : Nat := wrapN 64 (sgn a / (2 : Int) ^ (b % 64))
def aluMul (a b : Nat) : Nat := (a * b) % 2 ^ 64
def aluMin (a b : Nat) : Nat := if sgn a ≤ sgn b then a else b
def aluMax (a b : Nat) : Nat := if sgn a ≤ sgn b then b else a
def aluMinu (a b : Nat) : Nat := min a b
def aluMaxu (a b : Nat) : Nat := max a b
def aluSlt (a b : Nat) : Nat := if sgn a < sgn b then 1 else 0
def aluSltu (a b : Nat) : Nat := if a < b then 1 else 0

/-- The register form of an operation (R357): s[RD] ← s[RA] op s[RB]. -/
def State.aluReg (s : State) (u dt op : Nat) (f : Nat → Nat → Nat) : Host.Outcome State Fault Refusal :=
  if s.canIssue u op then
    let w := s.iw u
    fin (s.scalarDone u dt (fRd w) (f (s.sreg u (fRa w)) (s.sreg u (fRb w))))
  else stay s

/-- The immediate form: s[RD] ← s[RA] op IMM. -/
def State.aluImm (s : State) (u dt op : Nat) (f : Nat → Nat → Nat) : Host.Outcome State Fault Refusal :=
  if s.canIssue u op then
    let w := s.iw u
    fin (s.scalarDone u dt (fRd w) (f (s.sreg u (fRa w)) (fImm w)))
  else stay s

/-- NOP (Table 08-1). -/
def execNop (u : CoreId) (dt : Nat) (s : State) : Host.Outcome State Fault Refusal :=
  if s.canIssue u 0x00 then fin (s.plainDone u dt) else stay s

/-- ADD (R357, opcode 0x10). -/
def execAdd (u : CoreId) (dt : Nat) (s : State) : Host.Outcome State Fault Refusal := s.aluReg u dt 0x10 aluAdd

/-- SUB (R357, opcode 0x11). -/
def execSub (u : CoreId) (dt : Nat) (s : State) : Host.Outcome State Fault Refusal := s.aluReg u dt 0x11 aluSub

/-- AND (R357, opcode 0x12). -/
def execAndReg (u : CoreId) (dt : Nat) (s : State) : Host.Outcome State Fault Refusal := s.aluReg u dt 0x12 aluAnd

/-- OR (R357, opcode 0x13). -/
def execOrReg (u : CoreId) (dt : Nat) (s : State) : Host.Outcome State Fault Refusal := s.aluReg u dt 0x13 aluOr

/-- XOR (R357, opcode 0x14). -/
def execXorReg (u : CoreId) (dt : Nat) (s : State) : Host.Outcome State Fault Refusal := s.aluReg u dt 0x14 aluXor

/-- SLL (R357, opcode 0x15). -/
def execSll (u : CoreId) (dt : Nat) (s : State) : Host.Outcome State Fault Refusal := s.aluReg u dt 0x15 aluSll

/-- SRL (R357, opcode 0x16). -/
def execSrl (u : CoreId) (dt : Nat) (s : State) : Host.Outcome State Fault Refusal := s.aluReg u dt 0x16 aluSrl

/-- SRA (R357, opcode 0x17). -/
def execSra (u : CoreId) (dt : Nat) (s : State) : Host.Outcome State Fault Refusal := s.aluReg u dt 0x17 aluSra

/-- MUL (R357, opcode 0x18). -/
def execMul (u : CoreId) (dt : Nat) (s : State) : Host.Outcome State Fault Refusal := s.aluReg u dt 0x18 aluMul

/-- MIN (R357, opcode 0x19). -/
def execMin (u : CoreId) (dt : Nat) (s : State) : Host.Outcome State Fault Refusal := s.aluReg u dt 0x19 aluMin

/-- MAX (R357, opcode 0x1a). -/
def execMax (u : CoreId) (dt : Nat) (s : State) : Host.Outcome State Fault Refusal := s.aluReg u dt 0x1a aluMax

/-- MINU (R357, opcode 0x1b). -/
def execMinu (u : CoreId) (dt : Nat) (s : State) : Host.Outcome State Fault Refusal := s.aluReg u dt 0x1b aluMinu

/-- MAXU (R357, opcode 0x1c). -/
def execMaxu (u : CoreId) (dt : Nat) (s : State) : Host.Outcome State Fault Refusal := s.aluReg u dt 0x1c aluMaxu

/-- SLT (R357, opcode 0x1d). -/
def execSlt (u : CoreId) (dt : Nat) (s : State) : Host.Outcome State Fault Refusal := s.aluReg u dt 0x1d aluSlt

/-- SLTU (R357, opcode 0x1e). -/
def execSltu (u : CoreId) (dt : Nat) (s : State) : Host.Outcome State Fault Refusal := s.aluReg u dt 0x1e aluSltu

/-- ADDI (R357, opcode 0x20). -/
def execAddi (u : CoreId) (dt : Nat) (s : State) : Host.Outcome State Fault Refusal := s.aluImm u dt 0x20 aluAdd

/-- SUBI (R357, opcode 0x21). -/
def execSubi (u : CoreId) (dt : Nat) (s : State) : Host.Outcome State Fault Refusal := s.aluImm u dt 0x21 aluSub

/-- ANDI (R357, opcode 0x22). -/
def execAndi (u : CoreId) (dt : Nat) (s : State) : Host.Outcome State Fault Refusal := s.aluImm u dt 0x22 aluAnd

/-- ORI (R357, opcode 0x23). -/
def execOri (u : CoreId) (dt : Nat) (s : State) : Host.Outcome State Fault Refusal := s.aluImm u dt 0x23 aluOr

/-- XORI (R357, opcode 0x24). -/
def execXori (u : CoreId) (dt : Nat) (s : State) : Host.Outcome State Fault Refusal := s.aluImm u dt 0x24 aluXor

/-- SLLI (R357, opcode 0x25). -/
def execSlli (u : CoreId) (dt : Nat) (s : State) : Host.Outcome State Fault Refusal := s.aluImm u dt 0x25 aluSll

/-- SRLI (R357, opcode 0x26). -/
def execSrli (u : CoreId) (dt : Nat) (s : State) : Host.Outcome State Fault Refusal := s.aluImm u dt 0x26 aluSrl

/-- SRAI (R357, opcode 0x27). -/
def execSrai (u : CoreId) (dt : Nat) (s : State) : Host.Outcome State Fault Refusal := s.aluImm u dt 0x27 aluSra

/-- MULI (R357, opcode 0x28). -/
def execMuli (u : CoreId) (dt : Nat) (s : State) : Host.Outcome State Fault Refusal := s.aluImm u dt 0x28 aluMul

/-- MINI (R357, opcode 0x29). -/
def execMini (u : CoreId) (dt : Nat) (s : State) : Host.Outcome State Fault Refusal := s.aluImm u dt 0x29 aluMin

/-- MAXI (R357, opcode 0x2a). -/
def execMaxi (u : CoreId) (dt : Nat) (s : State) : Host.Outcome State Fault Refusal := s.aluImm u dt 0x2a aluMax

/-- MINUI (R357, opcode 0x2b). -/
def execMinui (u : CoreId) (dt : Nat) (s : State) : Host.Outcome State Fault Refusal := s.aluImm u dt 0x2b aluMinu

/-- MAXUI (R357, opcode 0x2c). -/
def execMaxui (u : CoreId) (dt : Nat) (s : State) : Host.Outcome State Fault Refusal := s.aluImm u dt 0x2c aluMaxu

/-- SLTI (R357, opcode 0x2d). -/
def execSlti (u : CoreId) (dt : Nat) (s : State) : Host.Outcome State Fault Refusal := s.aluImm u dt 0x2d aluSlt

/-- SLTUI (R357, opcode 0x2e). -/
def execSltui (u : CoreId) (dt : Nat) (s : State) : Host.Outcome State Fault Refusal := s.aluImm u dt 0x2e aluSltu

/-! ### Loads and stores (R405 to R407, R319 to R322) -/

/-- SIZE, NW and the effective offset of an LD or ST. -/
def fSize (w : Nat) : Nat := 2 ^ bits w 24 2
def fNw (w : Nat) : Nat := bits w 27 3 + 1
def State.ldOff (s : State) (u w : Nat) : Nat := (s.sreg u (fRa w) + fImm w) % 2 ^ 64

/-- The checks of R405 and R406, `r` being the first data register; the offset must not misalign, pass the scratchpad, or leave its 64-byte
segment. -/
def State.ldCheck (s : State) (u w r : Nat) : Nat :=
  let a := s.ldOff u w
  let n := fSize w * fNw w
  firstBad [(decide (fSize w < 8) && decide (1 < fNw w), St.opBad), (decide (31 < r + fNw w - 1), St.opBad),
    (decide (spdBytes ≤ a), St.spdRange), (decide (a % fSize w ≠ 0), St.spdAlign), (decide (a / 64 ≠ (a + n - 1) / 64), St.spdAlign)]

/-- One loaded word: 0 where its scratchpad word is poisoned (Table 17-2), else zero- or sign-extended (R405). -/
def State.ldWord (s : State) (u a size : Nat) (sx : Bool) : Nat :=
  if s.spdPoison u a then 0
  else
    let v := s.spdNum u a size
    if sx then wrapN 64 (sext (8 * size) v) else v

/-- LD (R405, R406): `ecc` lists the errors its read met. -/
def execLd (u : CoreId) (dt : Nat) (ecc : List EccErr) (s : State) : Host.Outcome State Fault Refusal :=
  if !(s.canIssue u 0x30) then stay s
  else
    let w := s.iw u
    let a := s.ldOff u w
    let n := fSize w * fNw w
    let bad := s.ldCheck u w (fRd w)
    let c := s.core u
    if decide (64 ≤ c.sb.length) || c.conflict [rowsOf a n] [] then stay s
    else if bad ≠ 0 then fin ((s.tick u dt).reject u bad)
    else
      let pc := s.pc u
      let s := (s.tick u dt).eccErrs u (eccAt a n ecc)
      let st := s.spdStatus u a n
      let s1 := (List.range (fNw w)).foldl (fun t i => t.setSreg u (fRd w + i) (s.ldWord u (a + i * fSize w) (fSize w) (w.testBit 26)))
        (s.issued u false 0)
      fin (((((s1.record u [rowsOf a n] [] false).noteOff u a n).pmc u 0xE 1).next u).raise u st pc)

/-- ST (R407): posted; its scoreboard entry stays until its narrow slot has passed. A write of part of a word reads the word first: `dt.errs` lists
the error that read met, and a poisoned word reports SPD_UE (R322). -/
def execSt (u : CoreId) (dt : Met Nat EccErr) (s : State) : Host.Outcome State Fault Refusal :=
  if !(s.canIssue u 0x31) then stay s
  else
    let w := s.iw u
    let a := s.ldOff u w
    let n := fSize w * fNw w
    let bad := s.ldCheck u w (fRb w)
    let c := s.core u
    if decide (64 ≤ c.sb.length) || c.conflict [] [rowsOf a n] then stay s
    else if bad ≠ 0 then fin ((s.tick u dt.arg).reject u bad)
    else
      let pc := s.pc u
      let data := (List.range (fNw w)).flatMap (fun i => toBytes (fSize w) (s.sreg u (fRb w + i)))
      let s := (s.tick u dt.arg).eccErrs u (if fSize w < 8 then eccAt a n dt.errs else [])
      let st := if s.spdAnyOff u a n then St.spdOff else if decide (fSize w < 8) && s.spdAnyPoison u a n then St.spdUe else St.ok
      let s := (s.issued u false 0).record u [] [rowsOf a n] true
      fin ((((s.spdWrite u a data false).pmc u 0xE 1).next u).raise u st pc)

/-! ### Branches (R408, R409) -/

/-- The conditions of BR (Table 08-9). -/
def brTaken (cond a b : Nat) : Bool :=
  match cond with
  | 0 => decide (a = b)
  | 1 => decide (a ≠ b)
  | 2 => decide (sgn a < sgn b)
  | 3 => decide (sgn b ≤ sgn a)
  | 4 => decide (a < b)
  | 5 => decide (b ≤ a)
  | _ => true

/-- BR: rejected with OP_BAD for condition 7 or a target above 12 bits. -/
def execBr (u : CoreId) (dt : Nat) (s : State) : Host.Outcome State Fault Refusal :=
  if !(s.canIssue u 0x32) then stay s
  else
    let w := s.iw u
    if bits w 24 3 = 7 ∨ 4096 ≤ fImm w then fin ((s.tick u dt).reject u St.opBad)
    else if brTaken (bits w 24 3) (s.sreg u (fRa w)) (s.sreg u (fRb w)) then
      fin (((s.tick u dt).issued u false 0).jump u (fImm w))
    else fin (s.plainDone u dt)

/-- JAL: s[RD] ← PC + 1, then the jump. -/
def execJal (u : CoreId) (dt : Nat) (s : State) : Host.Outcome State Fault Refusal :=
  if !(s.canIssue u 0x33) then stay s
  else
    let w := s.iw u
    if 4096 ≤ fImm w then fin ((s.tick u dt).reject u St.opBad)
    else fin ((((s.tick u dt).issued u false 0).setSreg u (fRd w) (s.pc u + 1)).jump u (fImm w))

/-- The task ends with PC_RANGE whatever ERRSTOP holds (R231, R409, R418). -/
def State.pcRange (s : State) (u pc : Nat) : State :=
  let s := s.raise u St.pcRange pc
  if (s.core u).tasked && !(s.core u).stopping then s.stopTask u else s

/-- JR: a value above 4,095 ends the task with PC_RANGE (R409). -/
def execJr (u : CoreId) (dt : Nat) (s : State) : Host.Outcome State Fault Refusal :=
  if !(s.canIssue u 0x34) then stay s
  else
    let v := s.sreg u (fRa (s.iw u))
    let pc := s.pc u
    let s := (s.tick u dt).issued u false 0
    if 4095 < v then fin (s.pcRange u pc) else fin (s.jump u v)

/-- PC_OVERRUN (R231). -/
def execPcOverrun (u : CoreId) (s : State) : Host.Outcome State Fault Refusal :=
  if s.runs u ∧ (s.core u).pcOver then fin (s.pcRange u 4095) else stay s

/-! ### Special registers and configuration words -/

/-- CORE_TSTATUS as a word (Table 08-12). -/
def State.tstatus (s : State) (u : Nat) : Nat :=
  s.reg .tstatusCode u 0 + s.reg .tstatusPc u 0 * 2 ^ 8 + s.reg .tstatusValid u 0 * 2 ^ 20

/-- The special registers of Table 08-10; a YZ2-KB block takes its numbers from CORE_KB_CFG (Table 20-16). -/
def State.special (s : State) (u dt sel : Nat) : Option Nat :=
  match sel with
  | 0 => some ((s.core u).cycles + dt)
  | 1 => some (if u = 128 then s.reg .kbCoreNum u 0 else u)
  | 2 => some (if u = 128 then s.reg .kbChipNum u 0 else s.chip)
  | 3 => some (if u = 128 then s.reg .kbPart u 0 else (s.partOf u).getD 0)
  | 4 => some (s.reg .swgKnext u 0)
  | 5 => some (s.tstatus u)
  | _ => none

/-- RDSR (R358, Table 08-10): another selector is rejected with OP_BAD. -/
def execRdsr (u : CoreId) (dt : Nat) (s : State) : Host.Outcome State Fault Refusal :=
  if !(s.canIssue u 0x35) then stay s
  else match s.special u dt (bits (s.iw u) 64 8) with
    | some v => fin (s.scalarDone u dt (fRd (s.iw u)) v)
    | none => fin ((s.tick u dt).reject u St.opBad)

/-- RDCFG (R362). -/
def execRdcfg (u : CoreId) (dt : Nat) (s : State) : Host.Outcome State Fault Refusal :=
  if !(s.canIssue u 0x36) then stay s
  else
    let w := s.iw u
    if bits w 24 2 = 3 then fin ((s.tick u dt).reject u St.cfgBad)
    else fin (s.scalarDone u dt (fRd w) (s.tc u (bits w 24 2)))

/-- The checks of a configuration word, in the order of R363 (R831). -/
def cfgCheck (sel v : Nat) : Nat :=
  if sel = 3 then St.cfgBad
  else if sel ≠ 0 then 0
  else firstBad [(decide (tGsel v = 3) || decide (tSplit v = 1), St.cfgBad), (decide (tShape v = 3), St.shapeBad),
    (decide (11 ≤ tFmt v) || decide (11 ≤ tOfmt v), St.fmtRole), (decide (5 ≤ tPeop v) || decide (6 ≤ tTreeop v), St.redopBad)]

/-- CFG and CFGR with value `v` (R362 to R364): a new SHAPE holds the sequencer until SHAPE_CHANGE; reserved bits are not stored (R7). -/
def State.cfgWith (s : State) (u dt v : Nat) : Host.Outcome State Fault Refusal :=
  let sel := bits (s.iw u) 24 2
  let bad := cfgCheck sel v
  let v' := if sel = 0 then v % 2 ^ 29 else if sel = 1 then putBits (v % 2 ^ 61) 36 1 0 else v % 2 ^ 52
  if (s.core u).hold ≠ .none then stay s
  else if bad ≠ 0 then fin ((s.tick u dt).reject u bad)
  else if sel = 0 ∧ tShape v ≠ s.reg .coreShape u 0 then
    fin ((s.tick u dt).setCore u { (s.tick u dt).core u with hold := .shape v' })
  else fin ((((s.tick u dt).issued u false 0).setReg .coreTc u sel v').next u)

/-- CFG (R363): the value is IMM. -/
def execCfg (u : CoreId) (dt : Nat) (s : State) : Host.Outcome State Fault Refusal :=
  if s.canIssue u 0x40 then s.cfgWith u dt (fImm (s.iw u)) else stay s

/-- CFGR (R363): the value is s[RA]. -/
def execCfgr (u : CoreId) (dt : Nat) (s : State) : Host.Outcome State Fault Refusal :=
  if s.canIssue u 0x41 then s.cfgWith u dt (s.sreg u (fRa (s.iw u))) else stay s

/-- What a change of SHAPE does to the arrays (R234, R374): both sets to +0, both stationary buffers and both set records empty. -/
def Core.clearArrays (c : Core) : Core :=
  { c with acc := [], accGen := [], active := none, standby := none, standbyBad := false, recLive := none, recShadow := none, heldMma := [] }

/-- SHAPE_CHANGE (R233, R364): once every stationary load, MMA and drain of the core has completed. -/
def execShapeChange (u : CoreId) (s : State) : Host.Outcome State Fault Refusal :=
  let c := s.core u
  match c.hold with
  | .shape v =>
    let busy := c.qFeed.any (fun d => decide (d.kind = .lds) || decide (d.kind = .mma)) || c.qDrain.any (fun d => decide (d.kind = .drain))
      || !c.heldMma.isEmpty
    if busy || s.fenced u then stay s
    else
      let s := s.setCore u { c.clearArrays with hold := .none }
      let s := ((s.setReg .coreShape u 0 (tShape v)).setReg .coreTc u 0 v).issued u false 0
      fin (s.next u)
  | _ => stay s

/-! ### Task control (R410 to R413) -/

/-- Every pair of a mask is ON. -/
def State.pairsOn (s : State) (u mask : Nat) : Bool :=
  (onesOf 8 mask).all (fun p => decide (s.pairIs u p = 3) && decide (s.pairAsked u p = 3)
    && !((s.core u).pairRun.any (fun x => decide (x.1 = p))))

/-- SPWR (R410): asks for the states, and holds until pairs set ON are ON. Code 0b10 is rejected with OP_BAD (R354). -/
def execSpwr (u : CoreId) (dt : Nat) (s : State) : Host.Outcome State Fault Refusal :=
  if !(s.canIssue u 0x03) then stay s
  else
    let w := s.iw u
    let mask := bits w 24 8
    let st := bits w 32 2
    match (s.core u).hold with
    | .spwr m => if s.pairsOn u m then fin ((s.setCore u { s.core u with hold := .none }).plainDone u dt) else stay s
    | _ =>
      if st = 2 then fin ((s.tick u dt).reject u St.opBad)
      else
        let s1 := s.askPairs u mask st
        if st = 3 ∧ ¬ s1.pairsOn u mask then fin (s1.setCore u { s1.core u with hold := .spwr mask })
        else fin (s1.plainDone u dt)

/-- Every instruction issued into queue `q` has completed (R411). -/
def Core.queueDone (c : Core) (q : Nat) : Bool :=
  (c.queue q).isEmpty && (decide (q ≠ 0) || c.heldMma.isEmpty) && (decide (q ≠ 2) || c.xfers.isEmpty)

/-- FENCE (R411): mask bits 0 to 3 name queues, bit 4 posted stores and SOPs. -/
def execFence (u : CoreId) (dt : Nat) (s : State) : Host.Outcome State Fault Refusal :=
  if !(s.canIssue u 0x02) then stay s
  else
    let m := bits (s.iw u) 24 5
    let c := s.core u
    if (onesOf 4 m).all (fun q => c.queueDone q) && (!(m.testBit 4) || c.noPosted) then fin (s.plainDone u dt) else stay s

/-- END (R412): the task ends once every queue is empty and everything started or posted is complete. -/
def execEndTask (u : CoreId) (dt : Nat) (s : State) : Host.Outcome State Fault Refusal :=
  if !(s.canIssue u 0x01) then stay s
  else
    let c := s.core u
    if (onesOf 4 15).all (fun q => c.queueDone q) && c.noPosted then fin (((s.tick u dt).issued u false 0).endTask u) else stay s

/-- BRK (R413): in debug mode it halts before the next instruction. -/
def execBrk (u : CoreId) (dt : Nat) (s : State) : Host.Outcome State Fault Refusal :=
  if !(s.canIssue u 0x04) then stay s
  else
    let s := s.plainDone u dt
    fin (if s.reg .dbgEn u 0 = 1 then s.setReg .dbgHalted u 0 1 else s)

/-- The opcodes of Table 08-1. -/
def opDefined (o : Nat) : Bool :=
  decide (o ≤ 4) || (decide (0x10 ≤ o) && decide (o ≤ 0x1E)) || (decide (0x20 ≤ o) && decide (o ≤ 0x2E))
    || (decide (0x30 ≤ o) && decide (o ≤ 0x36)) || decide (o = 0x40) || decide (o = 0x41) || decide (o = 0x50) || decide (o = 0x51)
    || decide (o = 0x60) || decide (o = 0x61) || (decide (0x70 ≤ o) && decide (o ≤ 0x73)) || decide (o = 0x80)
    || (decide (0x90 ≤ o) && decide (o ≤ 0x93)) || decide (o = 0xA0)

/-- The OP field of an SOP (Table 08-7). -/
def sOp (w : Nat) : Nat := bits w 24 3

/-- UNDEFINED_OPCODE (R11, R354): an opcode that Table 08-1 does not list, or an SOP whose OP is reserved, is rejected with OP_BAD. -/
def execUndefinedOpcode (u : CoreId) (dt : Nat) (s : State) : Host.Outcome State Fault Refusal :=
  let o := fOpc (s.iw u)
  if s.canIssue u o && (!(opDefined o) || (decide (o = 0xA0) && decide (6 ≤ sOp (s.iw u)))) then fin ((s.tick u dt).reject u St.opBad) else stay s

end Sys2Proof.Machine
end

