-- ==== Sys2Proof/Machine/Tensor.lean ====
section
/-! DEFINITION. Stationary loads, MMAs and SWAP (04_sparse_operands.md, 05_tensor_core.md, 06_accumulation.md, 08_tile_instructions.md):
issue, start, Seam intersection and promotion into the accumulator sets. -/

namespace Sys2Proof.Machine

/-! ### Shapes (Table 05-2) -/

def shapeW (sh : Nat) : Nat := if sh = 0 then 32 else if sh = 1 then 64 else 128
def shapeN (sh : Nat) : Nat := if sh = 0 then 32 else if sh = 1 then 16 else 8
def shapeR (sh : Nat) : Nat := if sh = 0 then 256 else if sh = 1 then 128 else 64
def shapeBlocks (sh : Nat) : Nat := if sh = 0 then 1 else if sh = 1 then 4 else 16

/-- Lanes of one processing element, and lanes of an array. -/
def laneR (fmt : Nat) : Nat := if fmt = 5 then 2 else if fmt = 6 ∨ fmt = 8 then 4 else 1
def laneCount (sh fmt : Nat) : Nat := laneR fmt * shapeW sh

/-- The entry of MMA row `i`, column `n` with base column block `b` (R242, Table 06-10). -/
def entryIdx (sh b i n : Nat) : Nat :=
  i % shapeR sh * (8192 / shapeR sh) + (b + i / shapeR sh) * shapeN sh + n

/-- ROWS_BAD (R243). -/
def rowsBad (sh rows b mask : Nat) : Bool :=
  decide (rows = 0) || decide (256 < rows) || decide (shapeBlocks sh ≤ b + ceilDiv rows (shapeR sh) - 1) || decide (mask = 0)

/-! ### Convolution addressing (R256 to R261) -/

structure ConvP where
  fm : Nat
  c  : Nat
  ih : Nat
  iw : Nat
  oh : Nat
  ow : Nat
  kh : Nat
  kw : Nat
  sy : Nat
  sx : Nat
  dy : Nat
  dx : Nat
  pt : Nat
  pl : Nat
deriving DecidableEq, Repr

/-- The parameters of TC1 and TC2 (Table 08-3). -/
def convParams (t1 t2 : Nat) : ConvP where
  fm := bits t1 0 20
  c := bits t1 20 16 + 1
  ih := bits t1 37 12 + 1
  iw := bits t1 49 12 + 1
  oh := bits t2 0 12 + 1
  ow := bits t2 12 12 + 1
  kh := bits t2 24 4 + 1
  kw := bits t2 28 4 + 1
  sy := bits t2 32 3 + 1
  sx := bits t2 35 3 + 1
  dy := bits t2 38 3 + 1
  dx := bits t2 41 3 + 1
  pt := bits t2 44 4
  pl := bits t2 48 4

/-- CONV_BAD (R261). -/
def ConvP.bad (p : ConvP) (fmt : Nat) : Bool :=
  decide (p.fm % 8 ≠ 0) || decide (spdBytes ≤ p.fm) || decide (p.c * eltBits fmt % 64 ≠ 0)
  || decide (spdBytes ≤ p.fm + p.ih * p.iw * p.c * eltBits fmt / 8 - 1) || decide (fmt = 5) || decide (fmt = 6)

/-- The element number in the feature map of lane coordinate `k`, column coordinate `n`: none where it is inserted (R256 to R259). -/
def ConvP.elt (p : ConvP) (k n : Nat) : Option Nat :=
  if p.kh * p.kw * p.c ≤ k ∨ p.oh * p.ow ≤ n then none
  else
    let ch := k % p.c
    let kx := k / p.c % p.kw
    let ky := k / p.c / p.kw
    let iy : Int := (n / p.ow * p.sy + ky * p.dy : Nat) - (p.pt : Int)
    let ix : Int := (n % p.ow * p.sx + kx * p.dx : Nat) - (p.pl : Int)
    if iy < 0 ∨ (p.ih : Int) ≤ iy ∨ ix < 0 ∨ (p.iw : Int) ≤ ix then none
    else some ((iy.toNat * p.iw + ix.toNat) * p.c + ch)

/-! ### Stationary loads -/

/-- One element of a stationary row. -/
structure TElt where
  enc    : Nat
  scale  : Nat
  poison : Bool
  sup    : Bool
deriving DecidableEq, Repr

/-- The effective origins of an LDS, and the shape, format and span of its copy. -/
def ldsK0 (d : Disp) : Nat := d.ea
def ldsN0 (d : Disp) : Nat := d.eb
def Disp.desc (d : Disp) (i : Nat) : Desc := parseDesc (nth d.descs i 0)

/-- Rows of the stationary span: SPAN × WL under COMPACT, else WL (R182, R185). -/
def ldsSpan (t : Nat) : Nat :=
  laneCount (tShape t) (tFmt t) * (if tCompact t then tSpan t else 1)

/-- Stationary row `k` of a queued LDS: its N elements, or where the decode stops. -/
def State.ldsRow (s : State) (u : Nat) (d : Disp) (k : Nat) : Except (Nat × Nat) (List TElt) :=
  let fmt := tFmt d.tc0
  let n := shapeN (tShape d.tc0)
  let n0 := ldsN0 d
  if tConv d.tc0 then
    let p := convParams d.tc1 d.tc2
    .ok ((List.range n).map (fun j => match p.elt k (n0 + j) with
      | none => ⟨0, 127, false, true⟩
      | some i =>
        let b := i * eltBits fmt
        let a := p.fm + b / 8
        let m := (b % 8 + eltBits fmt + 7) / 8
        ⟨bits (s.spdNum u a m) (b % 8) (eltBits fmt), 127, s.spdAnyPoison u a m, false⟩))
  else
    let ds := d.desc 0
    if ds.lines ≤ k then .ok (List.replicate n ⟨0, 127, false, true⟩)
    else match s.decodeLine u ds k n0 n with
      | .error e => .error (k, e.2)
      | .ok es => .ok ((List.range n).map (fun j => match es.find? (fun e => decide (e.pos = n0 + j)) with
          | some e => ⟨e.enc, e.scale, e.poison, false⟩
          | none => ⟨0, 127, false, decide (ds.len ≤ n0 + j)⟩))

/-- A row whose elements all count as zero (R181). -/
def rowZero (fmt : Nat) (r : List TElt) : Bool :=
  r.all (fun e => zeroCode fmt e.enc && decide (e.scale ≠ 255) && !e.poison)

/-- The rows that lanes hold, with their k, and KNEXT (R182, R183): scanning `fuel` rows from `k`. -/
def State.ldsScan (s : State) (u : Nat) (d : Disp) (wl : Nat) : Nat → Nat → List (Nat × List TElt) →
    Except (Nat × Nat) (List (Nat × List TElt) × Nat)
  | 0, k, acc => .ok (acc, k)
  | fuel + 1, k, acc =>
    if acc.length = wl then .ok (acc, k)
    else match s.ldsRow u d k with
      | .error e => .error e
      | .ok r => s.ldsScan u d wl fuel (k + 1) (if tCompact d.tc0 && rowZero (tFmt d.tc0) r then acc else acc ++ [(k, r)])

/-- The tile that a queued LDS forms. -/
def State.ldsTile (s : State) (u : Nat) (d : Disp) : Except (Nat × Nat) Tile :=
  let fmt := tFmt d.tc0
  let sh := tShape d.tc0
  let wl := laneCount sh fmt
  let n := shapeN sh
  match s.ldsScan u d wl (ldsSpan d.tc0) (ldsK0 d) [] with
  | .error e => .error e
  | .ok (rows, kn) =>
    let fill := List.replicate (n * (wl - rows.length)) (⟨0, 127, false, true⟩ : TElt)
    let es := rows.flatMap (fun r => r.2) ++ fill
    let ds := d.desc 0
    let conv := tConv d.tc0
    .ok { fmt := fmt, shape := sh, dense := conv || decide (ds.layout = 0), linek := conv || ds.linek, bscale := !conv && ds.bscale
          k0 := ldsK0 d
          knext := kn
          lanes := rows.map (fun r => some r.1) ++ List.replicate (wl - rows.length) none
          els := es.map (fun e => e.enc)
          sup := es.map (fun e => e.sup)
          poison := es.map (fun e => e.poison)
          scale := es.map (fun e => e.scale) }

/-- The rows of the feature map that hold an element of stationary rows [k0, k0 + nk), each once (R260). -/
def convRows (p : ConvP) (fmt k0 nk n0 n : Nat) : List (Nat × Nat) :=
  let is := (List.range nk).flatMap (fun i => (List.range n).filterMap (fun j => p.elt (k0 + i) (n0 + j)))
  (is.foldl (fun l i => setAdd ((p.fm + i * eltBits fmt / 8) / 512) l) []).map (fun r => (r, r))

/-- The scratchpad rows that a stationary load reads for the rows [k0, k0 + nk) of its span. -/
def State.ldsRows (s : State) (u t t1 t2 k0 nk n0 : Nat) (ds : Desc) : List (Nat × Nat) :=
  let n := shapeN (tShape t)
  if tConv t then convRows (convParams t1 t2) (tFmt t) k0 nk n0 n
  else s.opRows u ds k0 (min nk (ds.lines - k0)) n0 (min n (ds.len - n0))

/-- The checks of an LDS at issue, by the groups of Table 18-5. -/
def State.ldsCheck (s : State) (u t k0 n0 : Nat) (ds : Desc) : Nat :=
  let fmt := tFmt t
  if tConv t then
    firstBad [(!(isOperand fmt), St.fmtRole), ((convParams (s.tc u 1) (s.tc u 2)).bad fmt, St.convBad)]
  else
    firstBad [(decide (ds.lines ≤ k0) || decide (ds.len ≤ n0), St.idxRange), (ds.bad, St.descBad),
      (!(isOperand fmt) || !(isOperand ds.fmt) || ds.scaleRole, St.fmtRole), (decide (ds.fmt ≠ fmt), St.fmtMixed),
      (decide (ds.layout ≠ 0) && s.noSlot6 u, St.wheelRole)]

/-- LDS (R367 to R369). -/
def execLds (u : CoreId) (dt : Nat) (s : State) : Host.Outcome State Fault Refusal :=
  if !(s.canIssue u 0x50) then stay s
  else
    let w := s.iw u
    let t := s.tc u 0
    let slot := bits w 24 4
    let k0 := s.idx u (bits w 28 24) (fRa w)
    let n0 := s.idx u (bits w 52 24) (fRb w)
    let ds := s.descOf u slot
    let rd := s.ldsRows u t (s.tc u 1) (s.tc u 2) k0 (ldsSpan t) n0 ds
    let c := s.core u
    if c.heldBy 0 rd [] || (!(tConv t) && c.loadPending [slot] (decide (ds.layout = 15))) then stay s
    else
      let bad := s.ldsCheck u t k0 n0 ds
      if bad ≠ 0 then fin ((s.tick u dt).reject u bad)
      else fin (s.issueTile u dt 0 (s.mkDisp u .lds k0 n0 0 0 [s.dslot u slot] none) rd [])

/-- A scratchpad row of these ranges lies in a pair that is not ON. -/
def State.rowsOff (s : State) (u : Nat) (l : List (Nat × Nat)) : Bool :=
  l.any (fun r => (List.range (r.2 + 1 - r.1)).any (fun i => !(s.rowOn u (r.1 + i))))

/-- Some array of line `l`, positions [p0, p0 + n), lies in a pair that is not ON. -/
def State.lineOff (s : State) (u : Nat) (d : Desc) (l p0 n : Nat) : Bool :=
  s.rowsOff u (s.opRows u { d with bscale := false } l 1 p0 n)
  || (d.bscale && if d.linek then s.rowsOff u (byteRows (d.scaleB + l / 32 * d.len + p0) (d.scaleB + l / 32 * d.len + p0 + n))
        else (List.range ((p0 + n - 1) / 32 + 1 - p0 / 32)).any (fun i =>
          s.rowsOff u (byteRows (d.scaleB + (p0 / 32 + i) * d.lines + l) (d.scaleB + (p0 / 32 + i) * d.lines + l + 1))))

/-- The scratchpad errors that an operation met in the rows it reads. -/
def eccIn (rows : List (Nat × Nat)) (l : List EccErr) : List EccErr :=
  l.filter (fun e => rows.any (fun r => decide (r.1 ≤ e.word / 64) && decide (e.word / 64 ≤ r.2)))

/-- SPD_OFF before SPD_UE (R330, R341). -/
def offUe (off ue : Bool) : Nat := if off then St.spdOff else if ue then St.spdUe else St.ok

/-- The numeric flags that reading the elements of a tile sets; lanes and columns that the device supplies are not read. -/
def Tile.readFl (t : Tile) : Nat :=
  (List.range t.els.length).foldl (fun fl i =>
    if nth t.sup i false then fl else fl ||| readFlags t.fmt (nth t.els i 0) (nth t.scale i 127)) 0

/-- The rows that a queued stationary load reads: its tile's up to KNEXT (R183), or those up to the line at which the decode stops. -/
def State.ldsRead (s : State) (u : Nat) (d : Disp) (ecc : List EccErr) : List (Nat × Nat) :=
  let ds := d.desc 0
  let rows (nk : Nat) := s.ldsRows u d.tc0 d.tc1 d.tc2 d.ea nk d.eb ds
  match (s.eccErrs u (eccIn (rows (ldsSpan d.tc0)) ecc)).ldsTile u d with
  | .error e => rows (e.1 + 1 - d.ea)
  | .ok t => rows (t.knext - t.k0)

/-- What a started LDS does. -/
def State.doLds (s : State) (u : Nat) (d : Disp) (ecc : List EccErr) : State :=
  let ds := d.desc 0
  let s := s.popFront u 0
  let rows := s.ldsRead u d ecc
  let s := s.eccErrs u (eccIn rows ecc)
  let off (nk : Nat) : Bool := if tConv d.tc0 then s.rowsOff u rows
    else (List.range (min nk (ds.lines - d.ea))).any (fun i =>
      s.lineOff u ds (d.ea + i) d.eb (min (shapeN (tShape d.tc0)) (ds.len - d.eb)))
  match s.ldsTile u d with
  | .error e =>
    let s := (s.setCore u { s.core u with standby := none, standbyBad := true }).offAcc u (off (e.1 + 1 - d.ea))
    (s.swgFail u e.2 (bits d.word 24 4) e.1).complete u e.2 d
  | .ok t =>
    let s1 := s.setCore u { s.core u with standby := some t, standbyBad := false }
    let s1 := ((s1.setReg .swgKnext u 0 t.knext).numFlags u t.readFl).offAcc u (off (t.knext - t.k0))
    s1.complete u (offUe (off (t.knext - t.k0)) (t.poison.any id)) d

/-- LDS_START (R235 to R239, R173): the standby buffer must be free of an unused tile. -/
def execLdsStart (u : CoreId) (ecc : List EccErr) (s : State) : Host.Outcome State Fault Refusal :=
  match s.front u 0 .lds with
  | none => stay s
  | some d => if (s.core u).standby.isSome then stay s else fin (s.underIssue u d.id (fun s => s.doLds u d ecc))

/-! ### MMA: issue -/

/-- What the checks of an MMA need of the tile it would use: format, block scales, LINEK, dense; none where it would use no tile, as behind a
stopped load whose empty buffer no earlier MMA takes (R173). -/
def Core.tileInfo (c : Core) : Option (Nat × Bool × Bool × Bool) :=
  match (c.qFeed.filter (fun d => decide (d.kind = .lds))).getLast? with
  | some d =>
    let ds := d.desc 0
    let conv := tConv d.tc0
    some (tFmt d.tc0, !conv && ds.bscale, conv || ds.linek, conv || decide (ds.layout = 0))
  | none =>
    if c.standbyBad && !(c.qFeed.any (fun d => decide (d.kind = .mma))) then none
    else match c.standby with
    | some t => some (t.fmt, t.bscale, t.linek, t.dense)
    | none => match c.active with
      | some t => some (t.fmt, t.bscale, t.linek, t.dense)
      | none => none

/-- Table 06-5's last column. -/
def sparseAllowed (peop treeop : Nat) : Bool :=
  (decide (peop = 0) && decide (treeop = 0)) || (decide (peop = 1) && (decide (treeop = 0) || decide (treeop = 2) || decide (treeop = 3) || decide (treeop = 4)))

/-- The lines that array `a` takes start here (R240). -/
def mmaLine (w l0 a : Nat) : Nat := l0 + a * bits w 52 16
def mmaRows (w : Nat) : Nat := bits w 68 9
def mmaB (w : Nat) : Nat := bits w 77 4
def mmaMask (w : Nat) : Nat := bits w 81 4
def mmaFlag (w : Nat) : Nat := bits w 85 2

/-- Bytes of the full-width area of an MMA or RAW drain (R279). -/
def fullBytes (sh w : Nat) : Nat := countOnes 4 (mmaMask w) * mmaRows w * shapeN sh * 8

/-- A line of an enabled array lies at or beyond LINES (R361, R370, R373). -/
def linesBad (w l0 : Nat) (ds : Desc) : Bool :=
  decide (ds.lines ≤ l0) || (decide (mmaRows w ≠ 0) && (onesOf 4 (mmaMask w)).any (fun a => decide (ds.lines ≤ mmaLine w l0 a + mmaRows w - 1)))

/-- The checks of an MMA at issue (R369, R370, R112, R120, R180, R328, R296 to R299, R243, R282). -/
def State.mmaCheck (s : State) (u w t l0 lb : Nat) (ds : Desc) : Nat :=
  let fmt := tFmt t
  let ti := (s.core u).tileInfo
  let tile (p : Nat × Bool × Bool × Bool → Bool) : Bool := ti.any p
  let load := decide (mmaFlag w = 2)
  let scaled := mustScale fmt || mustScale ds.fmt || tile (fun x => mustScale x.1)
  let sparse := decide (ds.layout ≠ 0) || tCompact t || tile (fun x => !x.2.2.2)
  firstBad [(load && decide (spdBytes ≤ lb), St.spdRange), (load && decide (lb % 8 ≠ 0), St.spdAlign), (linesBad w l0 ds, St.idxRange),
    (ds.bad, St.descBad),
    (!(isOperand fmt) || !(isOperand ds.fmt) || ds.scaleRole, St.fmtRole),
    (scaled && (!ds.bscale || !ds.rscale || tile (fun x => !x.2.1)), St.scaleMissing),
    (decide (ds.fmt ≠ fmt) || tile (fun x => decide (x.1 ≠ fmt)), St.fmtMixed),
    (ds.linek || tile (fun x => !x.2.2.1), St.layoutRole), (decide (ds.layout ≠ 0) && s.noSlot6 u, St.wheelRole),
    (decide (mmaFlag w = 3) || (decide (tPeop t ≠ 0) && !(decide (fmt = 7) || decide (fmt = 8))) || (decide (tPeop t = 0) && decide (tTreeop t ≠ 0)), St.redopBad),
    (sparse && !(sparseAllowed (tPeop t) (tTreeop t)), St.redopSparse),
    (rowsBad (tShape t) (mmaRows w) (mmaB w) (mmaMask w), St.rowsBad),
    (load && (decide (lb % 8 ≠ 0) || decide (spdBytes < lb + fullBytes (tShape t) w)), St.loadRange)]

/-- The scratchpad rows that an MMA reads. -/
def State.mmaReads (s : State) (u w t l0 lb : Nat) (ds : Desc) : List (Nat × Nat) :=
  (onesOf 4 (mmaMask w)).flatMap (fun a =>
    s.opRows u ds (mmaLine w l0 a) (min (mmaRows w) (ds.lines - mmaLine w l0 a)) 0 ds.len)
  ++ (if mmaFlag w = 2 then byteRows lb (lb + fullBytes (tShape t) w) else [])

/-- MMA (R366, R369 to R374): copies its modes and writes the set record of the live set. -/
def execMma (u : CoreId) (dt : Nat) (s : State) : Host.Outcome State Fault Refusal :=
  if !(s.canIssue u 0x51) then stay s
  else
    let w := s.iw u
    let t := s.tc u 0
    let slot := bits w 24 4
    let l0 := s.idx u (bits w 28 24) (fRa w)
    let lb := if mmaFlag w = 2 then s.idx u (8 * bits w 87 17) (fRb w) else 0
    let ds := s.descOf u slot
    let rd := s.mmaReads u w t l0 lb ds
    let c := s.core u
    if c.heldBy 0 rd [] || c.loadPending [slot] (decide (ds.layout = 15)) then stay s
    else
      let bad := s.mmaCheck u w t l0 lb ds
      if bad ≠ 0 then fin ((s.tick u dt).reject u bad)
      else
        let d := s.mkDisp u .mma l0 lb 0 0 [s.dslot u slot] none
        let r : SetRec := ⟨tFmt t, tPeop t, tTreeop t, tComp t, ds.rscale, ds.rscaleB⟩
        let s := s.setCore u { s.core u with recLive := some r }
        fin (s.issueTile u dt 0 d rd [])

/-! ### MMA: execution -/

/-- Element (lane, column) of a tile. -/
def Tile.at (t : Tile) (j n : Nat) : TElt :=
  let i := j * shapeN t.shape + n
  ⟨nth t.els i 0, nth t.scale i 127, nth t.poison i false, nth t.sup i false⟩

/-- A lane whose row holds a NaN or an infinity (R190). -/
def Tile.special (t : Tile) (j : Nat) : Bool :=
  (List.range (shapeN t.shape)).any (fun n => let e := t.at j n
                                             !(isInt t.fmt) && (blockVal e.scale (readVal t.fmt e.enc).1).special)

/-- The weight element at lane `j`: the stored element at its coordinate; a zero weight that Seam supplies at a special lane (R190); or none. -/
def laneWeight (t : Tile) (dense : Bool) (es : List DElt) (j : Nat) : Option DElt :=
  match nth t.lanes j none with
  | none => none
  | some k => match es.find? (fun e => decide (e.pos = k)) with
    | some e => some e
    | none => if dense || t.special j then some ⟨k, 0, 127, false⟩ else none

/-- The lanes of group `g` that take part: every lane with dense weights, else the matched ones (R187 to R190, R193). -/
def groupLanes (t : Tile) (dense : Bool) (es : List DElt) (gsz g : Nat) : List Nat :=
  let js := (List.range gsz).map (fun i => g * gsz + i)
  if dense then js else js.filter (fun j => (laneWeight t dense es j).isSome)

/-- One group sum of column `n`, with the flags it sets: lanes without a match, and bitwise lanes whose element the device supplies, contribute
+0 or the tree operator's identity (R197, R298). -/
def groupSumOf (d : Disp) (t : Tile) (dense : Bool) (len : Nat) (es : List DElt) (gsz g n : Nat) : Val × Nat :=
  let peop := tPeop d.tc0
  let treeop := tTreeop d.tc0
  let w := eltBits t.fmt
  let js := (List.range gsz).map (fun i => g * gsz + i)
  if peop = 0 then
    let ps := js.map (fun j =>
      let e := t.at j n
      match laneWeight t dense es j with
      | some x => foldProduct t.fmt (tRnd d.tc0) (tSat d.tc0) e.enc e.scale x.enc x.scale
      | none => (Val.zero, 0))
    let fl := ps.foldl (fun a p => a ||| p.2) 0
    let r := if isInt t.fmt then valSum (ps.map (fun p => p.1)) else groupSum (ps.map (fun p => p.1))
    (r.1, fl ||| r.2)
  else
    let idt := newIdentity t.fmt treeop
    let ls := js.map (fun j =>
      let e := t.at j n
      match laneWeight t dense es j with
      | some x => if e.sup || decide (len ≤ x.pos) then idt else laneBits peop w e.enc x.enc
      | none => idt)
    (intVal (groupBits treeop w ls), 0)

/-- A present weight element that no lane holds and that is NaN or infinite makes its whole row NaN (R191): the flags, 0 for none. -/
def missedSpecial (t : Tile) (es : List DElt) : Nat :=
  if isInt t.fmt then 0
  else es.foldl (fun fl e =>
    if t.lanes.contains (some e.pos) then fl
    else
      let v := blockVal e.scale (readVal t.fmt e.enc).1
      fl ||| (if v.isNan then Nf.nanin else if v.isInf then Nf.inv else 0)) 0

/-- The sums of one weight row for column `n`, in group order, and their flags. -/
def rowSums (d : Disp) (t : Tile) (ds : Desc) (es : List DElt) (n : Nat) : List Val × Nat :=
  let dense := decide (ds.layout = 0)
  let gsz := 4 * 2 ^ tGsel d.tc0
  let gs := (List.range (t.lanes.length / gsz)).filter (fun g => !(groupLanes t dense es gsz g).isEmpty)
  let sums := gs.map (fun g => groupSumOf d t dense ds.len es gsz g n)
  let miss := missedSpecial t es
  (sums.map (fun x => x.1) ++ (if miss ≠ 0 then [.nan] else []), sums.foldl (fun a x => a ||| x.2) miss)

/-- Seam's counts for one weight row: matched lanes, segments, filled lanes (Table 04-6). -/
def seamCounts (d : Disp) (t : Tile) (es : List DElt) : Nat × Nat × Nat :=
  let gsz := 4 * 2 ^ tGsel d.tc0
  let ls := ((List.range (t.lanes.length / gsz)).map (fun g => (groupLanes t false es gsz g).length)).filter (fun k => decide (k ≠ 0))
  let m := sumOf ls id
  (m, ls.length, ls.length * gsz - m)

/-- The starting value of an entry (Table 06-2), with the flags and poison of a LOAD partial (R280, R281, R113). -/
def State.startOf (s : State) (u : Nat) (d : Disp) (t : Tile) (a' i n : Nat) : Option Nat × Nat × Bool :=
  let flag := mmaFlag d.word
  if flag = 0 then (some (newIdentity t.fmt (tTreeop d.tc0)), 0, false)
  else if flag = 1 then (none, 0, false)
  else
    let a := d.eb + ((a' * mmaRows d.word + i) * shapeN t.shape + n) * 8
    let x := s.spdNum u a 8
    let p := s.spdAnyPoison u a 8
    if isInt t.fmt then (some (wrapN 64 (sext 48 x)), 0, p)
    else
      let sv := readVal 0 (x % 2 ^ 32)
      let ev := readVal 0 (x / 2 ^ 32)
      let hi := if tComp d.tc0 then (enc32 false ev.1).1 else 0
      (some ((if isSubEnc 0 (x % 2 ^ 32) then (enc32 false sv.1).1 else x % 2 ^ 32)
        + (if tComp d.tc0 then (if isSubEnc 0 (x / 2 ^ 32) then hi else x / 2 ^ 32) else 0) * 2 ^ 32),
        sv.2 ||| (if tComp d.tc0 then ev.2 else 0), p)

/-- The distinct lines that an MMA reads, ascending. -/
def mmaLines (w l0 : Nat) : List Nat :=
  (onesOf 4 (mmaMask w)).foldl (fun l a => (List.range (mmaRows w)).foldl (fun l i => setAdd (mmaLine w l0 a + i) l) l) []

/-- Everything that an MMA forms from its tile and decoded weight lines: its promotions, numeric flags and Seam counts. -/
def State.formMma (s : State) (u : Nat) (d : Disp) (t : Tile) (ls : List (Nat × List DElt)) : HeldMma × Nat × (Nat × Nat × Nat) :=
  let ds := d.desc 0
  let w := d.word
  let elsAt (l : Nat) : List DElt := match ls.find? (fun x => decide (x.1 = l)) with
    | some x => x.2
    | none => []
  let arrays := onesOf 4 (mmaMask w)
  let places := (List.range arrays.length).flatMap (fun a' => (List.range (mmaRows w)).map (fun i => (a', i)))
  let cells := places.flatMap (fun p =>
    let a := nth arrays p.1 0
    let es := elsAt (mmaLine w d.ea a + p.2)
    (List.range (shapeN t.shape)).map (fun n =>
      let r := rowSums d t ds es n
      let st := s.startOf u d t p.1 p.2 n
      (({ array := a, idx := entryIdx t.shape (mmaB w) p.2 n, start := st.1, fresh := decide (mmaFlag w = 0), poison := st.2.2, sums := r.1 } : Promo), r.2 ||| st.2.1)))
  let poison := t.poison.any id || ls.any (fun x => x.2.any (fun e => e.poison)) || cells.any (fun c => c.1.poison)
  let readFl := ls.foldl (fun fl x => x.2.foldl (fun fl e =>
    fl ||| readFlags t.fmt e.enc e.scale) fl) 0
  let cnt := if ds.layout = 0 then (0, 0, 0) else places.foldl (fun (c : Nat × Nat × Nat) p =>
    let x := seamCounts d t (elsAt (mmaLine w d.ea (nth arrays p.1 0) + p.2))
    (c.1 + x.1, c.2.1 + x.2.1, c.2.2 + x.2.2)) (0, 0, 0)
  ({ id := d.id, treeop := tTreeop d.tc0, peop := tPeop d.tc0, fmt := t.fmt, comp := tComp d.tc0, sat := tSat d.tc0, undef := []
     promos := cells.map (fun c => { c.1 with poison := poison }) },
   cells.foldl (fun fl c => fl ||| c.2) readFl, cnt)

/-- Freeze cycles and MMA cycles of one MMA (R251, Table 05-7, Table 17-8). -/
def State.freezes (s : State) (u : Nat) (fz : FreezeCycles) : State :=
  let s := s.count .coreFrzFeed u 0 (fz.a + fz.b)
  let s := s.count .coreFrzPromo u 0 (fz.c + fz.d)
  let s := s.count .coreMmaCycles u 0 fz.cycles
  let s := ((((s.pmc u 6 fz.cycles).pmc u 7 fz.a).pmc u 8 fz.b).pmc u 9 fz.c).pmc u 0xA fz.d
  [(0, fz.a), (1, fz.b), (2, fz.c), (3, fz.d)].foldl (fun s x => if x.2 = 0 then s else s.traceEv u 3 x.1 x.2) s

/-- What a formed MMA does now, or once the SWAP before it has taken effect (R288). -/
def State.landMma (s : State) (u : Nat) (h : HeldMma) : State :=
  if (s.core u).qDrain.any (fun x => decide (x.kind = .swap) && decide (x.id < h.id)) then
    s.setCore u { s.core u with heldMma := (s.core u).heldMma ++ [h] }
  else s.applyMma u h

/-- What a started MMA does. A stationary load that completes in the very cycle in which it starts (`fz.atLoad`) leaves its tile to the next
MMA (R267). -/
def State.doMma (s : State) (u : Nat) (d : Disp) (fz : FreezeCycles) (ecc : List EccErr) : State :=
  let ds := d.desc 0
  let s := s.popFront u 0
  let c := s.core u
  if c.standbyBad && !fz.atLoad then (s.setCore u { c with standbyBad := false }).complete u St.statNone d
  else
    let c := if c.standby.isSome && !fz.atLoad then { c with active := c.standby, standby := none } else c
    match c.active with
    | none => s.complete u St.statNone d
    | some t =>
      let rows := s.mmaReads u d.word d.tc0 d.ea d.eb ds
      let s := ((s.setCore u c).freezes u fz).eccErrs u (eccIn rows ecc)
      let lines := mmaLines d.word d.ea
      match s.decodeLines u ds t.k0 (t.knext - t.k0) lines with
      | .error e =>
        let h : HeldMma := { id := d.id, treeop := 0, peop := 0, fmt := t.fmt, comp := false, sat := false, undef := onesOf 4 (mmaMask d.word), promos := [] }
        let off := (lines.filter (fun l => decide (l ≤ e.1))).any (fun l => s.lineOff u ds l t.k0 (min (t.knext - t.k0) (ds.len - t.k0)))
        (((s.landMma u h).offAcc u off).swgFail u e.2 (bits d.word 24 4) e.1).complete u e.2 d
      | .ok ls =>
        let r := s.formMma u d t ls
        let load := mmaFlag d.word = 2
        let off := lines.any (fun l => s.lineOff u ds l t.k0 (min (t.knext - t.k0) (ds.len - t.k0)))
          || (decide load && s.spdAnyOff u d.eb (fullBytes t.shape d.word))
        let ue := match r.1.promos with
          | p :: _ => p.poison
          | [] => false
        let s := (s.landMma u r.1).numFlags u r.2.1
        let s := ((s.count .seamMatched u 0 r.2.2.1).count .seamSegments u 0 r.2.2.2.1).count .seamFill u 0 r.2.2.2.2
        (s.offAcc u off).complete u (offUe off ue) d

/-- MMA_START (R236 to R238, R247 to R251, R173). -/
def execMmaStart (u : CoreId) (fz : FreezeCycles) (ecc : List EccErr) (s : State) : Host.Outcome State Fault Refusal :=
  match s.front u 0 .mma with
  | none => stay s
  | some d => fin (s.underIssue u d.id (fun s => s.doMma u d fz ecc))

/-! ### SWAP (R285 to R288) -/

/-- SWAP at issue: the set records are exchanged (R374). -/
def execSwap (u : CoreId) (dt : Nat) (s : State) : Host.Outcome State Fault Refusal :=
  if !(s.canIssue u 0x60) then stay s
  else if (s.core u).heldBy 1 [] [] then stay s
  else
    let c := s.core u
    let s := s.setCore u { c with recLive := c.recShadow, recShadow := c.recLive }
    fin ((s.issueTile u dt 1 (s.mkDisp u .swap 0 0 0 0 [] none) [] []).setReg .accSwapPend u 0 1)

/-- SWAP_EFFECT (R254, R286 to R288): once every MMA issued before it has its last result. Then the sums held behind it are promoted, up to
those that a further SWAP holds. -/
def execSwapEffect (u : CoreId) (holdCycles : Nat) (s : State) : Host.Outcome State Fault Refusal :=
  match s.front u 1 .swap with
  | none => stay s
  | some d =>
    let c := s.core u
    if c.qFeed.any (fun x => decide (x.kind = .mma) && decide (x.id < d.id)) || c.heldMma.any (fun h => decide (h.id < d.id)) then stay s
    else
      let s := s.popFront u 1
      let c := s.core u
      let later := (c.qDrain.find? (fun x => decide (x.kind = .swap))).map (fun x => x.id)
      let now (h : HeldMma) : Bool := match later with
        | some i => decide (h.id < i)
        | none => true
      let go := c.heldMma.filter now
      let s := s.setCore u { c with heldMma := c.heldMma.filter (fun h => !(now h)) }
      let s := s.setReg .accLive u 0 (1 - s.reg .accLive u 0)
      let s := (s.count .accSwaps u 0 1).count .accHold u 0 holdCycles
      let s := s.setReg .accSwapPend u 0 (b2n later.isSome)
      let s := s.traceEv u 2 0 (s.reg .accSwaps u 0)
      fin ((go.foldl (fun s h => s.applyMma u h) s).complete u St.ok d)

end Sys2Proof.Machine
end

