-- ==== Sys2Proof/Machine/Encode.lean ====
section
/-! DEFINITION. The drain finisher, block-scale choice, split pieces, pair results and the drain encoder (03_number_formats.md,
04_sparse_operands.md, 06_accumulation.md). -/

namespace Sys2Proof.Machine

/-! ### The finisher (Tables 06-6 and 06-7) -/

/-- What the finisher applies to one output row. -/
structure FinCfg where
  isInt : Bool
  comp  : Bool
  sat   : Bool
  rs    : Option Val
  bias  : Option Val
  clamp : Bool
  clo   : Val
  chi   : Val
  thr   : Nat
  th    : Val
deriving DecidableEq, Repr

/-- Stage 1: s, the exact s + e, or v (Table 06-6). -/
def FinCfg.stage1 (f : FinCfg) (v : Nat) : Val :=
  if f.isInt then
    let x := intVal (sext 48 v)
    if f.rs.isSome || f.bias.isSome || f.clamp || decide (f.thr ≠ 0) then (toFp32 false x).1 else x
  else if f.comp then (valSum [dec32 v, dec32 (v / 2 ^ 32)]).1
  else dec32 v

/-- Stage 2: x × row scale + bias with one rounding (R121, R139, R140). -/
def FinCfg.stage2 (f : FinCfg) (x : Val) : Val × Nat :=
  match f.rs, f.bias with
  | none, none => (x, 0)
  | rs, b =>
    let nanIn := if rs.any Val.isNan || b.any Val.isNan then Nf.nanin else 0
    let p := match rs with
      | some r => if x.isNan || r.isNan then (Val.nan, 0) else valMul x r
      | none => (x, 0)
    let q := match b with
      | some y => valSum [p.1, y]
      | none => (p.1, 0)
    let r := toFp32 f.sat q.1
    (r.1, nanIn ||| p.2 ||| q.2 ||| r.2)

/-- Stage 3: a NaN passes, and a zero keeps its sign. -/
def FinCfg.stage3 (f : FinCfg) (x : Val) : Val :=
  if !f.clamp || x.isNan then x
  else
    let y := if valLt x f.clo then f.clo else x
    if valLt f.chi y then f.chi else y

/-- Stage 4: the threshold functions. -/
def FinCfg.stage4 (f : FinCfg) (x : Val) : Val :=
  if x.isNan then x
  else match f.thr with
    | 1 => if valLt Val.zero x then x else Val.zero
    | 2 => if valLt f.th x then .num false 1 0 else Val.zero
    | 3 => if valLt f.th x.abs then x else Val.zero
    | _ => x

/-- Stages 1 to 4. -/
def FinCfg.run (f : FinCfg) (v : Nat) : Val × Nat :=
  let r := f.stage2 (f.stage1 v)
  (f.stage4 (f.stage3 r.1), r.2)

/-! ### Conversion and block scales -/

/-- A pair result (R146, R147): the FP32 sum, and the error term above it. -/
def pairEnc (sat : Bool) (x : Val) : Nat × Nat :=
  let r := toFp32 sat x
  let hi := enc32 sat x
  if r.1.special || decide (r.2 &&& Nf.satd ≠ 0) then hi
  else
    let e := (valSum [x, r.1.neg]).1
    if e.isZero then hi
    else let y := enc32 false e
         (hi.1 + y.1 * 2 ^ 32, hi.2 ||| y.2)

/-- Conversion to an output format without a block scale. -/
def outEnc (fmt : Nat) (sat : Bool) (x : Val) : Nat × Nat := if fmt = 10 then pairEnc sat x else convTo fmt sat x

/-- The largest finite magnitude of a block, none where it has no nonzero finite element (R123). -/
def maxMag (l : List Val) : Option Val :=
  l.foldl (fun a v => if v.special || v.isZero then a else match a with
    | none => some v.abs
    | some b => some (if valLt b v.abs then v.abs else b)) none

/-- The smallest code c with M ≤ MAXFIN × 2^(c − 127) (R123 to R125). -/
def blockCode (fmt : Nat) (l : List Val) : Nat :=
  if l.any Val.isNan then 0xFF
  else match maxMag l with
    | none => 0x7F
    | some (.num _ m e) =>
      match maxVal (fpFmt fmt) with
      | .num _ mm me =>
        let c : Int := lead m e - lead mm me
        let c := if valLt (.num false mm (me + c)) (.num false m e) then c + 1 else c
        min 0xFE (c + 127).toNat
      | _ => 0x7F
    | some _ => 0x7F

/-- The code of split piece `k` of a block with first code `c` (R143). -/
def pieceCode (c k : Nat) (zero : Bool) : Nat := if c = 0xFF then 0xFF else if zero then 0x7F else c - 4 * (k - 1)

/-- An element under block code `c`: its encoding, the flags, and the exact remainder it leaves. -/
def scaledEnc (fmt : Nat) (sat : Bool) (c : Nat) (x : Val) : Nat × Nat × Val :=
  if c = 0xFF then ((fpFmt fmt).nanEnc, 0, x)
  else
    let r := convTo fmt sat (x.scale (127 - (c : Int)))
    (r.1, r.2, (valSum [x, ((eltVal fmt r.1).scale ((c : Int) - 127)).neg]).1)

/-- The encoding of split piece `k` (1, 2 or 3) of an element in a block with first code `c` (R144); a block of zeros is written alike in every
piece (R143). -/
def pieceEnc (sat : Bool) (c k : Nat) (zero : Bool) (x : Val) : Nat × Nat :=
  let one (j : Nat) (y : Val) := scaledEnc 3 sat (pieceCode c j zero) y
  let rest (y : Val) : Val := if x.special then Val.zero else y
  let p1 := one 1 x
  if k = 1 ∨ zero then (p1.1, p1.2.1)
  else if c = 0xFF then (p1.1, 0)
  else
    let p2 := one 2 (rest p1.2.2)
    if k = 2 then (p2.1, p2.2.1)
    else let p3 := one 3 (rest p2.2.2)
         (p3.1, p3.2.1)

/-- An element before conversion: its position, value, an encoding where a bitwise drain gives one, and its mark. -/
structure OElt where
  pos    : Nat
  v      : Val
  raw    : Option Nat
  poison : Bool
deriving DecidableEq, Repr

/-- An element after conversion. -/
structure CElt where
  pos    : Nat
  enc    : Nat
  scale  : Nat
  poison : Bool
deriving DecidableEq, Repr

/-- A converted line: its elements, its block codes as (byte offset, code, mark), and whether everything that is written from it is marked
because its row scale is poisoned (R911). -/
structure CLine where
  line   : Nat
  els    : List CElt
  codes  : List (Nat × Nat × Bool)
  psn    : Bool
deriving DecidableEq, Repr

/-- The block code of position `p`, 127 where the output has none. -/
def CLine.codeAt (c : CLine) (d : Desc) (p : Nat) : Nat := (nth c.codes (if d.linek then p else p / 32) (0, 127, false)).2.1

/-- What a dense output holds at position `p`: its element, or zero where it has none, which in a block that holds a NaN is the canonical NaN
(R124). -/
def CLine.denseAt (c : CLine) (d : Desc) (p : Nat) : Nat × Bool :=
  match c.els.find? (fun x => decide (x.pos = p)) with
  | some x => (x.enc, x.poison)
  | none => (if c.codeAt d p = 255 then (fpFmt d.fmt).nanEnc else 0, c.psn)

/-- The elements of a drain or MERGE that share the block of (line, pos) (R167, R914). -/
def blockOf (d : Desc) (ls : List (Nat × List OElt)) (l p : Nat) : List OElt :=
  if d.linek then (ls.filter (fun x => decide (x.1 / 32 = l / 32))).flatMap (fun x => x.2.filter (fun e => decide (e.pos = p)))
  else (ls.filter (fun x => decide (x.1 = l))).flatMap (fun x => x.2.filter (fun e => decide (e.pos / 32 = p / 32)))

/-- Converts the lines that are written for plane `k` of a split, or k = 0 without one; `width` is the number of positions covered and `psn` lists
the lines whose row scale is poisoned. -/
def convLines (d : Desc) (sat : Bool) (k width : Nat) (psn : List Nat) (ls : List (Nat × List OElt)) : List CLine × Nat :=
  let enc (l : Nat) (e : OElt) : CElt × Nat :=
    match e.raw with
    | some x => (⟨e.pos, x, 127, e.poison⟩, 0)
    | none =>
      if !d.bscale then let r := outEnc d.fmt sat e.v
                        (⟨e.pos, r.1, 127, e.poison⟩, r.2)
      else
        let vs := (blockOf d ls l e.pos).map (fun x => x.v)
        let c := blockCode d.fmt vs
        if k = 0 then let r := scaledEnc d.fmt sat c e.v
                      (⟨e.pos, r.1, c, e.poison⟩, r.2.1)
        else
          let z := vs.all Val.isZero
          let r := pieceEnc sat c k z e.v
          (⟨e.pos, r.1, pieceCode c k z, e.poison⟩, r.2)
  let codes (l : Nat) : List (Nat × Nat × Bool) :=
    if !d.bscale then []
    else
      let ps := if d.linek then List.range width else (List.range (ceilDiv width 32)).map (fun i => 32 * i)
      ps.map (fun p =>
        let es := blockOf d ls l p
        let vs := es.map (fun x => x.v)
        let c := blockCode d.fmt vs
        let c := if k = 0 then c else pieceCode c k (vs.all Val.isZero)
        (if d.linek then d.scaleB + l / 32 * d.len + p else d.scaleB + p / 32 * d.lines + l, c, es.any (fun e => e.poison) || psn.contains l))
  let out := ls.map (fun x => (x.1, x.2.map (enc x.1)))
  (out.map (fun x => ⟨x.1, x.2.map (fun y => y.1), codes x.1, psn.contains x.1⟩), out.foldl (fun fl x => x.2.foldl (fun fl y => fl ||| y.2) fl) 0)

/-! ### Writing (R209 to R215, R912 to R916) -/

/-- Writes bytes whose marks are given one by one. -/
def State.spdWritePs (s : State) (u a : Nat) (l : Bytes) (ps : List Bool) : State :=
  let s := s.spdWrite u a l false
  let c := s.core u
  let bad := (List.range l.length).filter (fun i => nth ps i false && s.rowOn u ((a + i) / 512))
  s.setCore u { c with spdPsn := bad.foldl (fun p i => setAdd ((a + i) / 8) p) c.spdPsn }

/-- Writes elements of `eb` bits packed from bit `b` of byte offset `base`; the other bits of the bytes it shares keep their contents. -/
def State.writeBits (s : State) (u base b eb : Nat) (es : List (Nat × Bool)) : State :=
  if es.isEmpty then s
  else
    let a := base + b / 8
    let b0 := b % 8
    let nb := es.length * eb
    let n := ceilDiv (b0 + nb) 8
    let old := ofBytes ((List.range n).map (fun i => s.spdByte u (a + i)))
    let v := (es.foldr (fun e acc => e.1 % 2 ^ eb + acc * 2 ^ eb) 0)
    let marks := (List.range n).map (fun i =>
      (List.range es.length).any (fun j => (nth es j (0, false)).2 && decide (b0 + j * eb < 8 * i + 8) && decide (8 * i < b0 + (j + 1) * eb)))
    s.spdWritePs u a (toBytes n (putBits old b0 nb v)) marks

/-- The progress of an encoder: the line before, the running value offset in elements, the mark of a poisoned pointer it began from, the line and
status at which it stopped, the first line with poisoned data, whether an access met a pair that is not ON, whether N:M pruned, and the end of the
last whole line. -/
structure EncSt where
  s      : State
  prev   : Option Nat
  off    : Nat
  runP   : Bool
  fail   : Option (Nat × Nat)
  ue     : Option Nat
  isOff  : Bool
  pruned : Bool
  last   : Option Nat := none
deriving DecidableEq, Repr

/-- A layout with line pointers. -/
def Desc.ptrOut (d : Desc) : Bool := decide (d.layout = 1) || decide (d.layout = 2)

/-- The element multiple at which a line's values start (R915). -/
def valAlign (fmt : Nat) : Nat := if eltBits fmt = 4 then 2 else if eltBits fmt = 6 then 4 else 1

/-- Writes bytes with one mark and notes a pair that is not ON. -/
def EncSt.put (e : EncSt) (u a n v : Nat) (poison : Bool) : EncSt :=
  { e with s := e.s.spdWritePs u a (toBytes n v) (List.replicate n poison), isOff := e.isOff || e.s.spdAnyOff u a n }

/-- Writes packed elements. -/
def EncSt.putBits (e : EncSt) (u base b eb : Nat) (es : List (Nat × Bool)) : EncSt :=
  { e with s := e.s.writeBits u base b eb es, isOff := e.isOff || e.s.spdAnyOff u (base + b / 8) (ceilDiv (b % 8 + es.length * eb) 8) }

/-- Pointer entry `i`, where it lies in the scratchpad. -/
def EncSt.putPtr (e : EncSt) (u : Nat) (d : Desc) (i v : Nat) (poison : Bool) : EncSt :=
  if spdBytes < d.ptrB + 4 * i + 4 then e else e.put u (d.ptrB + 4 * i) 4 v poison

/-- A pointer entry behind a line that could not be written: the end of the last whole line, or where the first line would have started (R213). -/
def EncSt.putLast (e : EncSt) (u : Nat) (d : Desc) (i : Nat) : EncSt :=
  if d.ptrOut then e.putPtr u d i (e.last.getD e.off) e.runP else e

/-- Starts a run of consecutive lines (R913). DEDUCED, log entry 92: where the entry that it reads is an offset that R170 does not accept, the values
start at the next one that it does (R915), and the entry itself stays as it stands. -/
def EncSt.startRun (e : EncSt) (u : Nat) (d : Desc) (l : Nat) : EncSt :=
  if !d.ptrOut || (l ≠ 0 && decide (e.prev = some (l - 1))) then e
  else if l = 0 then { e.putPtr u d 0 0 false with off := 0, runP := false }
  else if spdBytes < d.ptrB + 4 * l + 4 then { e with fail := some (l, St.spdRange) }
  else
    let v := e.s.spdNum u (d.ptrB + 4 * l) 4
    { e with off := ceilDiv v (valAlign d.fmt) * valAlign d.fmt, runP := e.s.spdAnyPoison u (d.ptrB + 4 * l) 4
             isOff := e.isOff || e.s.spdAnyOff u (d.ptrB + 4 * l) 4 }

/-- The magnitude by which an N:M group keeps its elements (R211): NaN first, ties to the lower position; of a pair, that of its two terms' sum. -/
def nmRank (fmt : Nat) (e : CElt) : Val :=
  if fmt = 10 then (valSum [dec32 e.enc, dec32 (e.enc / 2 ^ 32)]).1.abs
  else if isInt fmt then (eltVal fmt e.enc).abs else (blockVal e.scale (eltVal fmt e.enc)).abs

/-- Inserts in order of rank, then position. -/
def nmInsert (fmt : Nat) (x : CElt) : List CElt → List CElt
  | [] => [x]
  | y :: t =>
    let rx := nmRank fmt x
    let ry := nmRank fmt y
    if (rx.isNan && !ry.isNan) || (!rx.isNan && !ry.isNan && valLt ry rx) then x :: y :: t else y :: nmInsert fmt x t

/-- The slots of one N:M group (R211, R212): (position, encoding, mark) in ascending order, and whether a nonzero was discarded. -/
def nmGroup (d : Desc) (psn : Bool) (es : List CElt) (g : Nat) : List (Nat × Nat × Bool) × Bool :=
  let mine := es.filter (fun e => decide (e.pos / d.mOf = g))
  let nz := (mine.filter (fun e => !(zeroCode d.fmt e.enc && decide (e.scale ≠ 255) && !e.poison))).foldl (fun l e => nmInsert d.fmt e l) []
  let kept := nz.take d.nOf
  let ks := kept.foldl (fun l e => setAdd (e.pos % d.mOf) l) []
  let free := ((List.range d.mOf).filter (fun p => !(ks.contains p))).take (d.nOf - ks.length)
  let ps := free.foldl (fun l p => setAdd p l) ks
  (ps.map (fun p => match kept.find? (fun e => decide (e.pos % d.mOf = p)) with
    | some e => (p, e.enc, e.poison)
    | none => (p, 0, psn)), decide (d.nOf < nz.length))

/-- Encodes one line: nothing of it where it does not fit or leaves the scratchpad (R213, R912), and no line behind one that failed. A dense output
takes every encoding, a negative zero too (log entry 93): R210 suppresses what a compressed one would store. -/
def encLine (u : Nat) (d : Desc) (width : Nat) (e0 : EncSt) (c : CLine) : EncSt :=
  let l := c.line
  let eb := eltBits d.fmt
  let e := if e0.fail.isSome then e0 else e0.startRun u d l
  if e.fail.isSome then e
  else
    let mark := e.runP || c.psn
    let linePoison := mark || c.els.any (fun x => x.poison)
    let keep := c.els.filter (fun x => !(zeroCode d.fmt x.enc && decide (x.scale ≠ 255) && !x.poison))
    let cnt := ceilDiv d.len 32
    let pad := if keep.isEmpty then 0 else ceilDiv (e.off + keep.length) (valAlign d.fmt) * valAlign d.fmt - (e.off + keep.length)
    let iw := if d.idx32 then 4 else 2
    let per := d.len / d.mOf * d.nOf
    let endOff := e.off + keep.length + pad
    -- the end of the line's values, and the end of its metadata and pointer
    let vEnd := match d.layout with
      | 0 => d.valB + l * d.dstride + ceilDiv (width * eb) 8
      | 3 => d.valB + ceilDiv ((l + 1) * per * eb) 8
      | _ => d.valB + ceilDiv (endOff * eb) 8
    let mEnd := match d.layout with
      | 1 => max (d.metaB + 4 * (l + 1) * cnt) (d.ptrB + 4 * l + 8)
      | 2 => max (d.metaB + iw * endOff) (d.ptrB + 4 * l + 8)
      | 3 => d.metaB + (l + 1) * d.mstride
      | _ => 0
    let st := if d.valLimit < vEnd then St.encFull
      else if decide (spdBytes < mEnd) || c.codes.any (fun x => decide (spdBytes ≤ x.1)) then St.spdRange else 0
    let e := { e with ue := if linePoison && e.ue.isNone then some l else e.ue }
    if st ≠ 0 then { e with fail := some (l, st) }
    else
      let e := { e with prev := some l }
      let e := match d.layout with
        | 0 => e.putBits u (d.valB + l * d.dstride) 0 eb ((List.range width).map (c.denseAt d))
        | 3 =>
          let gs := (List.range (d.len / d.mOf)).map (nmGroup d c.psn c.els)
          let slots := gs.flatMap (fun g => g.1)
          let e := { e with pruned := e.pruned || gs.any (fun g => g.2) }
          let e := e.putBits u d.valB (l * per * eb) eb (slots.map (fun x => (x.2.1, x.2.2)))
          e.putBits u (d.metaB + l * d.mstride) 0 d.mLog (slots.map (fun x => (x.1, linePoison)))
        | _ =>
          let e := e.putBits u d.valB (e.off * eb) eb (keep.map (fun x => (x.enc, x.poison || mark)) ++ List.replicate pad (0, mark))
          let lastPos := match keep.getLast? with
            | some x => x.pos
            | none => 0
          let e := if d.layout = 1 then
              e.put u (d.metaB + 4 * l * cnt) (4 * cnt) (keep.foldl (fun a x => a ||| 2 ^ x.pos) 0) linePoison
            else
              e.putBits u d.metaB (e.off * 8 * iw) (8 * iw)
                (keep.map (fun x => (x.pos, x.poison || mark)) ++ List.replicate pad (lastPos, linePoison))
          { e.putPtr u d (l + 1) endOff linePoison with off := endOff, last := some endOff }
      c.codes.foldl (fun e x => e.put u x.1 1 x.2.1 x.2.2) e

/-- Encodes converted lines in ascending order through one descriptor. -/
def State.encode (s : State) (u : Nat) (d : Desc) (width : Nat) (ls : List CLine) : EncSt :=
  ls.foldl (encLine u d width) { s := s, prev := none, off := 0, runP := false, fail := none, ue := none, isOff := false, pruned := false }

/-- The encoder stops at line `x.1` with status `x.2`: of the lines from there on, `late`, it writes the pointer entries alone (R213). A line from
which a run would have started gives them the offset that it would have started from. -/
def EncSt.stopAt (e : EncSt) (u : Nat) (d : Desc) (x : Nat × Nat) (late : List Nat) : EncSt :=
  let e := if e.fail.isSome then e else e.startRun u d x.1
  late.foldl (fun e l => e.putLast u d (l + 1)) { e with fail := some (e.fail.getD x) }

/-- Converts and encodes lines through one descriptor, and answers the flags of the conversion. The block codes come from the lines that are
written (R914): where a line cannot be written, those before it are converted without it and from it on. -/
def State.encodeLines (s : State) (u : Nat) (d : Desc) (sat : Bool) (k width : Nat) (psn : List Nat) :
    Nat → List (Nat × List OElt) → EncSt × Nat
  | 0, ls => let c := convLines d sat k width psn ls
             (s.encode u d width c.1, c.2)
  | f + 1, ls =>
    let c := convLines d sat k width psn ls
    let e := s.encode u d width c.1
    match e.fail with
    | none => (e, c.2)
    | some x =>
      let r := s.encodeLines u d sat k width psn f (ls.filter (fun y => decide (y.1 < x.1)))
      (r.1.stopAt u d x ((ls.filter (fun y => decide (x.1 ≤ y.1))).map (fun y => y.1)), c.2)

/-- The status of an encode, with its line: the lowest line decides, and a line that could not be written before its poison (R174). -/
def EncSt.status (e : EncSt) : Nat × Nat :=
  match e.fail, e.ue with
  | some f, some l => if l < f.1 then (St.spdUe, l) else (f.2, f.1)
  | some f, none => (f.2, f.1)
  | none, some l => (St.spdUe, l)
  | none, none => (St.ok, 0)

/-- The rows that an encoder writes for lines [l0, l0 + nl), positions below `width`. -/
def Desc.outRows (d : Desc) (l0 nl width : Nat) : List (Nat × Nat) :=
  let eb := eltBits d.fmt
  let le := l0 + nl
  let scale := if !d.bscale then []
    else if d.linek then byteRows (d.scaleB + l0 / 32 * d.len) (d.scaleB + (le - 1) / 32 * d.len + width)
    else byteRows (d.scaleB + l0) (d.scaleB + (width - 1) / 32 * d.lines + le)
  let per := d.len / d.mOf * d.nOf
  (match d.layout with
  | 0 => byteRows (d.valB + l0 * d.dstride) (d.valB + (le - 1) * d.dstride + ceilDiv (width * eb) 8)
  | 1 => byteRows d.valB d.valLimit ++ byteRows (d.metaB + 4 * l0 * ceilDiv d.len 32) (d.metaB + 4 * le * ceilDiv d.len 32)
           ++ byteRows (d.ptrB + 4 * l0) (d.ptrB + 4 * le + 4)
  | 2 => byteRows d.valB d.valLimit
           ++ byteRows d.metaB (d.metaB + (if d.idx32 then 4 else 2) * ((d.valLimit - d.valB) * 8 / eb)) ++ byteRows (d.ptrB + 4 * l0) (d.ptrB + 4 * le + 4)
  | _ => byteRows (d.valB + l0 * per * eb / 8) (d.valB + ceilDiv (le * per * eb) 8) ++ byteRows (d.metaB + l0 * d.mstride) (d.metaB + le * d.mstride))
  ++ scale

/-! ### DRAIN -/

/-- The record a DRAIN uses: of its shadow set, or TC0 where that is empty (R375, R376). -/
def State.drainRec (s : State) (u : Nat) : SetRec :=
  match (s.core u).recShadow with
  | some r => r
  | none => let t := s.tc u 0
            ⟨tFmt t, tPeop t, tTreeop t, tComp t, false, 0⟩

/-- A bitwise reduction that drains its low bits (R300, R301). -/
def SetRec.bitwise (r : SetRec) : Bool := decide (r.peop ≠ 0) && decide (r.treeop ≠ 0)

/-- The accumulator form is an integer (Table 06-1). -/
def SetRec.intForm (r : SetRec) : Bool := isInt r.fmt || decide (r.peop ≠ 0)

def drRaw (w : Nat) : Bool := w.testBit 85
def drBias (w : Nat) : Bool := w.testBit 86
def drClamp (w : Nat) : Bool := w.testBit 87
def drThr (w : Nat) : Nat := bits w 88 3

/-- The number of planes of a DRAIN. -/
def pieces (t : Nat) : Nat := if tSplit t = 0 then 1 else tSplit t

/-- Its highest line (R372). -/
def topLine (w l0 : Nat) : Nat := (onesOf 4 (mmaMask w)).foldl (fun m a => max m (mmaLine w l0 a + mmaRows w - 1)) 0

/-- The checks of a DRAIN at issue (R371, R373, R377, R294, R300, R305, R306, R909, Table 18-2). -/
def drainCheck (w t l0 base xc xt : Nat) (r : SetRec) (ds : List Desc) : Nat :=
  let rows := rowsBad (tShape t) (mmaRows w) (mmaB w) (mmaMask w)
  let thrBad := decide (4 ≤ drThr w)
  if drRaw w then
    firstBad (offChecks base 8 ++ [(rows, St.rowsBad),
      (decide (base % 8 ≠ 0) || decide (spdBytes < base + fullBytes (tShape t) w), St.loadRange), (thrBad, St.finBad)])
  else
    let np := pieces t
    let of_ := tOfmt t
    let d0 := bits w 24 4
    let clo := dec32 xc
    let chi := dec32 (xc / 2 ^ 32)
    let th := dec32 xt
    firstBad ([(drBias w && decide (spdBytes ≤ base), St.spdRange), (drBias w && decide (base % 8 ≠ 0), St.spdAlign),
      (ds.any (linesBad w l0), St.idxRange), (decide (15 < d0 + np - 1) || ds.any Desc.bad, St.descBad),
      (!(isOutput of_) || ds.any (fun d => !(isOutput d.fmt) || d.scaleRole) || (decide (of_ = 10) && r.intForm)
        || (decide (2 ≤ np) && decide (of_ ≠ 3)), St.fmtRole),
      ((mustScale of_ || decide (2 ≤ np)) && ds.any (fun d => !d.bscale), St.scaleMissing),
      (ds.any (fun d => decide (d.fmt ≠ of_)), St.fmtMixed),
      (ds.any (fun d => !d.linek || decide (3 < d.layout) || (decide (2 ≤ np) && decide (d.layout = 3))), St.layoutRole),
      (r.bitwise && ((decide (of_ ≠ 9) && decide (of_ ≠ r.fmt)) || r.rscale || drBias w || drClamp w || decide (drThr w ≠ 0)), St.redopBad),
      (rows, St.rowsBad),
      (thrBad || (drBias w && (decide (base % 8 ≠ 0) || decide (spdBytes < base + 4 * (topLine w l0 + 1))))
        || (drClamp w && (clo.isNan || chi.isNan || valLt chi clo)) || ((decide (drThr w = 2) || decide (drThr w = 3)) && th.isNan), St.finBad)])

/-- The rows that a DRAIN reads (R376, R913), and those it writes. -/
def drainRows (w t l0 base : Nat) (r : SetRec) (ds : List Desc) : List (Nat × Nat) × List (Nat × Nat) :=
  if drRaw w then ([], byteRows base (base + fullBytes (tShape t) w))
  else
    let starts := (onesOf 4 (mmaMask w)).map (mmaLine w l0)
    let n := mmaRows w
    let rd := starts.flatMap (fun l =>
      (if r.rscale then byteRows (r.rscaleBase + 2 * l) (r.rscaleBase + 2 * (l + n)) else [])
      ++ (if drBias w then byteRows (base + 4 * l) (base + 4 * (l + n)) else [])
      ++ ds.flatMap (fun d => if d.ptrOut && decide (l ≠ 0) then byteRows (d.ptrB + 4 * l) (d.ptrB + 4 * l + 4) else []))
    (rd, starts.flatMap (fun l => ds.flatMap (fun d => d.outRows l n (min (shapeN (tShape t)) d.len))))

/-- DRAIN (R371 to R378). -/
def execDrain (u : CoreId) (dt : Nat) (s : State) : Host.Outcome State Fault Refusal :=
  if !(s.canIssue u 0x61) then stay s
  else
    let w := s.iw u
    let t := s.tc u 0
    let l0 := s.idx u (bits w 28 24) (fRa w)
    let base := if drRaw w || drBias w then s.idx u (8 * bits w 101 17) (fRb w) else 0
    let xc := if drClamp w && !(drRaw w) then s.sreg u (bits w 91 5) else 0
    let xt := if (decide (drThr w = 2) || decide (drThr w = 3)) && !(drRaw w) then s.sreg u (bits w 96 5) else 0
    let r := s.drainRec u
    let slots := if drRaw w then [] else ((List.range (pieces t)).map (fun k => bits w 24 4 + k)).filter (fun k => decide (k < 16))
    let ds := slots.map (s.descOf u)
    let rr := drainRows w t l0 base r ds
    let c := s.core u
    if c.heldBy 1 rr.1 rr.2 || c.loadPending slots false then stay s
    else
      let bad := drainCheck w t l0 base xc xt r ds
      if bad ≠ 0 then fin ((s.tick u dt).reject u bad)
      else fin (s.issueTile u dt 1 (s.mkDisp u .drain l0 base xc xt (slots.map (s.dslot u)) (some r)) rr.1 rr.2)

/-- An entry in the full-width layout (R280). -/
def fullWidth (r : SetRec) (e : AccEntry) : Nat :=
  if r.intForm then wrapN 64 (sext 48 e.v) else if r.comp then e.v % 2 ^ 64 else e.v % 2 ^ 32

/-- A RAW drain of the shadow set: the new state, whether a pair was not ON, whether an entry was poisoned (R293). -/
def State.drainRaw (s : State) (u : Nat) (d : Disp) (r : SetRec) : State × Bool × Bool :=
  let w := d.word
  let sh := tShape d.tc0
  let arrays := onesOf 4 (mmaMask w)
  let set := 1 - s.reg .accLive u 0
  let cells := (List.range arrays.length).flatMap (fun a' => (List.range (mmaRows w)).flatMap (fun i => (List.range (shapeN sh)).map (fun n =>
    (d.eb + ((a' * mmaRows w + i) * shapeN sh + n) * 8, s.accGet u set (nth arrays a' 0) (entryIdx sh (mmaB w) i n)))))
  (cells.foldl (fun t c => t.spdWrite u c.1 (toBytes 8 (fullWidth r c.2)) c.2.poison) s,
   s.spdAnyOff u d.eb (fullBytes sh w), cells.any (fun c => c.2.poison))

/-- The FP16 row scale of output row `m` (R168, R113): beyond the scratchpad none. -/
def State.rowScale (s : State) (u : Nat) (r : SetRec) (m : Nat) : Option (Val × Nat × Bool × Bool) :=
  let a := r.rscaleBase + 2 * m
  if spdBytes < a + 2 then none
  else let x := readVal 2 (s.spdNum u a 2)
       some (x.1, x.2, s.spdAnyPoison u a 2, s.spdAnyOff u a 2)

/-- Inserts a line before the first larger line, after equal ones. -/
def lineInsert {α : Type} (x : Nat × α) : List (Nat × α) → List (Nat × α)
  | [] => [x]
  | y :: t => if x.1 < y.1 then x :: y :: t else y :: lineInsert x t

/-- What a DRAIN forms before conversion: its lines in ascending order, the flags, the lines whose row scale lies beyond the scratchpad, those whose
row scale is poisoned (R911), and whether an access met a pair that is not ON. -/
structure DrainOut where
  lines : List (Nat × List OElt) := []
  flags : Nat := 0
  cut   : List Nat := []
  psn   : List Nat := []
  off   : Bool := false
deriving DecidableEq, Repr

/-- The output lines of a DRAIN. -/
def State.drainLines (s : State) (u : Nat) (d : Disp) (r : SetRec) : DrainOut :=
  let w := d.word
  let t := d.tc0
  let sh := tShape t
  let set := 1 - s.reg .accLive u 0
  let width := min (shapeN sh) (d.descs.foldl (fun m x => max m (parseDesc x).len) 0)
  let places := (onesOf 4 (mmaMask w)).flatMap (fun a => (List.range (mmaRows w)).map (fun i => (a, i)))
  places.foldl (fun (acc : DrainOut) p =>
    let m := mmaLine w d.ea p.1 + p.2
    let rs := if r.rscale then s.rowScale u r m else none
    let ba := d.eb + 4 * m
    let bias := if drBias w then some (readVal 0 (s.spdNum u ba 4)) else none
    let off := rs.any (fun x => x.2.2.2) || (drBias w && s.spdAnyOff u ba 4)
    let lp := rs.any (fun x => x.2.2.1) || (drBias w && s.spdAnyPoison u ba 4)
    let cfg : FinCfg := { isInt := r.intForm, comp := r.comp, sat := tSat t, rs := rs.map (fun x => x.1), bias := bias.map (fun x => x.1)
                          clamp := drClamp w
                          clo := dec32 d.xc
                          chi := dec32 (d.xc / 2 ^ 32)
                          thr := drThr w
                          th := dec32 d.xt }
    let fl0 := (match rs with
      | some x => x.2.1
      | none => 0) ||| (match bias with
      | some x => x.2
      | none => 0)
    let es := (List.range width).map (fun n =>
      let e := s.accGet u set p.1 (entryIdx sh (mmaB w) p.2 n)
      if r.bitwise then ((⟨n, Val.zero, some (e.v % 2 ^ eltBits (tOfmt t)), e.poison || lp⟩ : OElt), 0)
      else let x := cfg.run e.v
           (⟨n, x.1, none, e.poison || lp⟩, x.2))
    { lines := lineInsert (m, es.map (fun x => x.1)) acc.lines, flags := es.foldl (fun fl x => fl ||| x.2) (acc.flags ||| fl0)
      cut := if r.rscale && rs.isNone then setAdd m acc.cut else acc.cut
      psn := if rs.any (fun x => x.2.2.1) then setAdd m acc.psn else acc.psn
      off := acc.off || off }) {}

/-- One plane of a DRAIN: lines at and beyond one whose row scale cannot be read are not written (R912). -/
def State.drainPlane (s : State) (u : Nat) (d : Disp) (k : Nat) (x : DrainOut) : EncSt × Nat :=
  let ds := d.desc (k - 1)
  let width := min (shapeN (tShape d.tc0)) ds.len
  let ls := x.lines.map (fun y => (y.1, y.2.filter (fun e => decide (e.pos < width))))
  let run (ls : List (Nat × List OElt)) := s.encodeLines u ds (tSat d.tc0) (if tSplit d.tc0 = 0 then 0 else k) width x.psn ls.length ls
  match x.cut with
  | [] => run ls
  | l :: _ =>
    let r := run (ls.filter (fun y => decide (y.1 < l)))
    (r.1.stopAt u ds (l, St.spdRange) ((ls.filter (fun y => decide (l ≤ y.1))).map (fun y => y.1)), r.2)

/-- The lower of two results of planes: status, line, slot. On one line a plane that cannot be written stands before poison, and then the earlier
plane (R174, R377). -/
def worse (a b : Nat × Nat × Nat) : Nat × Nat × Nat :=
  if b.1 = 0 then a else if a.1 = 0 then b
  else if b.2.1 < a.2.1 ∨ (b.2.1 = a.2.1 ∧ a.1 = St.spdUe ∧ b.1 ≠ St.spdUe) then b else a

/-- What a started DRAIN with set record `r` does. -/
def State.doDrain (s : State) (u : Nat) (d : Disp) (r : SetRec) (ecc : List EccErr) : State :=
  let ds := d.descs.map parseDesc
  let rows := (drainRows d.word d.tc0 d.ea d.eb r ds).1
  let s := (s.popFront u 1).eccErrs u (eccIn rows ecc)
  if drRaw d.word then
    let x := s.drainRaw u d r
    x.1.complete u (offUe x.2.1 x.2.2) d
  else
    let x := s.drainLines u d r
    let y := (List.range d.descs.length).foldl (fun (acc : State × Nat × (Nat × Nat × Nat) × Bool × Bool) k =>
      let p := acc.1.drainPlane u d (k + 1) x
      let st := p.1.status
      (p.1.s, acc.2.1 ||| p.2, worse acc.2.2.1 (st.1, st.2, bits d.word 24 4 + k), acc.2.2.2.1 || p.1.isOff, acc.2.2.2.2 || p.1.pruned))
      (s, x.flags, (0, 0, 0), x.off, false)
    let s := y.1.numFlags u y.2.1
    let s := if y.2.2.2.2 then s.setReg .swgPruned u 0 1 else s
    let s := s.offAcc u y.2.2.2.1
    let bad := y.2.2.1.1
    let s := if bad ≠ 0 ∧ bad ≠ St.spdUe then s.swgFail u bad y.2.2.1.2.2 y.2.2.1.2.1 else s
    s.complete u (if bad ≠ 0 ∧ bad ≠ St.spdUe then bad else if y.2.2.2.1 then St.spdOff else bad) d

end Sys2Proof.Machine
end

