-- ==== Sys2Proof/Machine/Front.lean ====
section
/-! DEFINITION. The sparse front end (08_tile_instructions.md "Sparse front-end instructions", 04_sparse_operands.md "Merge" and "Nonzero
counting"): DLOAD, ULOAD, COUNT and MERGE. An instruction of this queue starts in the step in which it issues, unless a GATE stands before it;
then it starts when that GATE goes. -/

namespace Sys2Proof.Machine

/-- Fields of Table 08-5. -/
def cntNl (w : Nat) : Nat := bits w 52 24
def mrgA (w : Nat) : Nat := bits w 24 4
def mrgB (w : Nat) : Nat := bits w 28 4
def mrgO (w : Nat) : Nat := bits w 32 4
def mrgComb (w : Nat) : Nat := bits w 36 3
def mrgNl (w : Nat) : Nat := bits w 63 24

/-- DLOAD (R379): a poisoned source stops it (Table 17-2). -/
def State.doDload (s : State) (u : Nat) (d : Disp) : State :=
  let st := s.spdStatus u d.ea 64
  let s := s.noteOff u d.ea 64
  let s := if s.spdAnyPoison u d.ea 64 then s else s.setDslot u (bits d.word 24 4) (s.spdNum u d.ea 64)
  s.complete u st d

/-- ULOAD (R381): words beyond the scratchpad or poisoned stop it. -/
def State.doUload (s : State) (u : Nat) (d : Disp) : State :=
  let n := bits d.word 34 10 + 1
  if spdBytes < d.ea + 4 * n then s.complete u St.spdRange d
  else
    let st := s.spdStatus u d.ea (4 * n)
    let s := s.noteOff u d.ea (4 * n)
    let s := if s.spdAnyPoison u d.ea (4 * n) then s
      else (List.range n).foldl (fun t i => t.setUword u (bits d.word 24 10 + i) (s.spdNum u (d.ea + 4 * i) 4)) s
    s.complete u st d

/-- The elements of an operand line that are present and do not count as zero (R206). -/
def liveElts (d : Desc) (es : List DElt) : List DElt := es.filter (fun e => !(e.zero d.fmt))

/-- The flags that reading the elements of an operand line sets. -/
def lineFlags (d : Desc) (es : List DElt) : Nat := es.foldl (fun fl e => fl ||| readFlags d.fmt e.enc e.scale) 0

/-- Inclusive prefix counts. -/
def prefixes : Nat → List Nat → List Nat
  | _, [] => []
  | a, n :: t => (a + n) :: prefixes (a + n) t

/-- COUNT (R206, R207, R383): a decode that stops writes nothing. The elements that it reads set the flags of a read (R118, Table 03-7). -/
def State.doCount (s : State) (u : Nat) (d : Disp) : State :=
  let ds := d.desc 0
  let n := cntNl d.word + 1
  let lines := (List.range n).map (fun i => d.ea + i)
  let offTo (l : Nat) : Bool := (lines.filter (fun k => decide (k ≤ l))).any (fun k => s.lineOff u ds k 0 ds.len)
  match s.decodeLines u ds 0 ds.len lines with
  | .error e => ((s.offAcc u (offTo e.1)).swgFail u e.2 (bits d.word 24 4) e.1).complete u e.2 d
  | .ok ls =>
    let s := s.numFlags u (ls.foldl (fun fl x => fl ||| lineFlags ds x.2) 0)
    if spdBytes < d.eb + 4 * n then ((s.offAcc u (offTo (d.ea + n))).swgFail u St.spdRange (bits d.word 24 4) (d.ea + (spdBytes - d.eb) / 4)).complete u St.spdRange d
    else
      let cs := prefixes 0 (ls.map (fun x => (liveElts ds x.2).length))
      let off := lines.any (fun l => s.lineOff u ds l 0 ds.len) || s.spdAnyOff u d.eb (4 * n)
      let ue := ls.any (fun x => x.2.any (fun e => e.poison))
      let s := s.spdWrite u d.eb (cs.flatMap (fun c => toBytes 4 c)) false
      (s.offAcc u off).complete u (offUe off ue) d

/-- The combination of two elements at one coordinate (R203), with the flags beside those of reading the two. DEDUCED, log entry 94: the encoding
that OR or XOR gives "is read as an element of the operand format", so it sets the flags of a read. -/
def combine (comb : Nat) (sat : Bool) (fmt : Nat) (a b : DElt) : Val × Nat :=
  let va := blockVal a.scale (readVal fmt a.enc).1
  let vb := blockVal b.scale (readVal fmt b.enc).1
  let reread (x : Nat) : Val × Nat := (blockVal a.scale (readVal fmt x).1, readFlags fmt x a.scale)
  match comb with
  | 0 => if isInt fmt then (intVal (sext 48 (wrapN 48 (va.toInt + vb.toInt))), 0)
    else
      let x := valSum [va, vb]
      let y := toFp32 sat x.1
      (y.1, x.2 ||| y.2)
  | 1 => if va.isNan || vb.isNan then (.nan, 0) else (if valLt vb va then vb else va, 0)
  | 2 => if va.isNan || vb.isNan then (.nan, 0) else (if valLt va vb then vb else va, 0)
  | 3 => reread (a.enc ||| b.enc)
  | 4 => reread (a.enc ^^^ b.enc)
  | _ => (va, 0)

/-- The union of two lines in ascending order (R202). -/
def mergeLine (comb : Nat) (sat : Bool) (fmt : Nat) : Nat → List DElt → List DElt → List (OElt × Nat)
  | 0, _, _ => []
  | _, [], [] => []
  | f + 1, a :: as, [] => (⟨a.pos, blockVal a.scale (readVal fmt a.enc).1, none, a.poison⟩, 0) :: mergeLine comb sat fmt f as []
  | f + 1, [], b :: bs => (⟨b.pos, blockVal b.scale (readVal fmt b.enc).1, none, b.poison⟩, 0) :: mergeLine comb sat fmt f [] bs
  | f + 1, a :: as, b :: bs =>
    if a.pos < b.pos then
      (⟨a.pos, blockVal a.scale (readVal fmt a.enc).1, none, a.poison⟩, 0) :: mergeLine comb sat fmt f as (b :: bs)
    else if b.pos < a.pos then
      (⟨b.pos, blockVal b.scale (readVal fmt b.enc).1, none, b.poison⟩, 0) :: mergeLine comb sat fmt f (a :: as) bs
    else
      let r := combine comb sat fmt a b
      (⟨a.pos, r.1, none, a.poison || b.poison⟩, r.2) :: mergeLine comb sat fmt f as bs

/-- The lines of a MERGE up to the first at which a decode stops: merged lines, flags, and the stop with its descriptor slot. -/
def State.mergeLines (s : State) (u : Nat) (w : Nat) (da db : Desc) (sat : Bool) :
    List Nat → List (Nat × List OElt) × Nat × Option (Nat × Nat × Nat)
  | [] => ([], 0, none)
  | l :: t =>
    match s.decodeLine u da l 0 da.len, s.decodeLine u db l 0 db.len with
    | .ok a, .ok b =>
      let la := liveElts da a
      let lb := liveElts db b
      let m := mergeLine (mrgComb w) sat da.fmt (la.length + lb.length) la lb
      let r := s.mergeLines u w da db sat t
      ((l, m.map (fun x => x.1)) :: r.1, m.foldl (fun fl x => fl ||| x.2) (r.2.1 ||| lineFlags da a ||| lineFlags db b), r.2.2)
    | .error e, .ok _ => ([], 0, some (l, e.2, mrgA w))
    | .ok _, .error e => ([], 0, some (l, e.2, mrgB w))
    | .error e, .error f => ([], 0, some (if f.1 < e.1 then (l, f.2, mrgB w) else (l, e.2, mrgA w)))

/-- MERGE (R202, R203, R205, R384). A decode that stops writes nothing (R173), unless the encoder had already stopped at a lower line: then the
lines before that one are written, and the pointer entries behind it (R213). Of a stop and poison on a lower line, the lower names the status (R174). -/
def State.doMerge (s : State) (u : Nat) (d : Disp) : State :=
  let da := d.desc 0
  let db := d.desc 1
  let do_ := d.desc 2
  let lines := (List.range (mrgNl d.word + 1)).map (fun i => d.ea + i)
  let m := s.mergeLines u d.word da db (tSat d.tc0) lines
  let r := s.encodeLines u do_ (tSat d.tc0) 0 do_.len [] m.1.length m.1
  let e := match r.1.fail with
    | some _ => (lines.drop m.1.length).foldl (fun (e : EncSt) l => e.putLast u do_ (l + 1)) r.1
    | none => r.1
  let off := (lines.take (m.1.length + 1)).any (fun l => s.lineOff u da l 0 da.len || s.lineOff u db l 0 db.len)
  let st := e.status
  match m.2.2, e.fail.isSome with
  | some x, false => ((s.offAcc u off).swgFail u x.2.1 x.2.2 x.1).complete u (if st.1 = St.spdUe then st.1 else x.2.1) d
  | _, _ =>
    let t := e.s.numFlags u (m.2.1 ||| r.2)
    let t := if e.pruned then t.setReg .swgPruned u 0 1 else t
    let isOff := off || e.isOff
    let t := t.offAcc u isOff
    let hard := decide (st.1 ≠ 0) && decide (st.1 ≠ St.spdUe)
    let t := if hard then t.swgFail u st.1 (mrgO d.word) st.2 else t
    t.complete u (if hard then st.1 else if isOff then St.spdOff else st.1) d

/-- A MERGE that waits for the finisher behind a DRAIN issued before it, which waits too (R425). -/
def Core.behindDrain (c : Core) (d : Disp) : Bool :=
  match c.qDrain with
  | [] => false
  | x :: _ => decide (d.kind = .merge) && decide (x.kind = .drain) && decide (x.id < d.id)

/-- Runs the front entry of the sparse front-end queue where it can start. -/
def State.runFront1 (s : State) (u : Nat) : State :=
  match (s.core u).qFront with
  | [] => s
  | d :: _ =>
    if !(s.canStart u) || (s.core u).behindDrain d then s
    else match d.kind with
    | .dload => s.underIssue u d.id (fun s => (s.popFront u 3).doDload u d)
    | .uload => s.underIssue u d.id (fun s => (s.popFront u 3).doUload u d)
    | .count => s.underIssue u d.id (fun s => (s.popFront u 3).doCount u d)
    | .merge => s.underIssue u d.id (fun s => (s.popFront u 3).doMerge u d)
    | .gate _ => s
    | .lds => s.popFront u 3
    | .mma => s.popFront u 3
    | .swap => s.popFront u 3
    | .drain => s.popFront u 3
    | .dma => s.popFront u 3

/-- Runs the entries of the queue up to one that waits. -/
def State.runFront (s : State) (u : Nat) : Nat → State
  | 0 => s
  | n + 1 => (s.runFront1 u).runFront u n

/-- DRAIN_START (R255, R289 to R293, R303 to R307, R371 to R378). A MERGE that waited for the finisher follows (R425). -/
def execDrainStart (u : CoreId) (ecc : List EccErr) (s : State) : Host.Outcome State Fault Refusal :=
  match s.front u 1 .drain with
  | none => stay s
  | some d =>
    match d.srec with
    | none => stay s
    | some r => fin ((s.underIssue u d.id (fun s => s.doDrain u d r ecc)).runFront u 17)

/-- Issues an instruction of this queue and starts what can start. -/
def State.issueFront (s : State) (u dt : Nat) (ecc : List EccErr) (d : Disp) (rd wr : List (Nat × Nat)) : State :=
  ((s.issueTile u dt 3 d rd wr).eccErrs u (eccIn rd ecc)).runFront u 17

/-- DLOAD (R379). -/
def execDload (u : CoreId) (dt : Nat) (ecc : List EccErr) (s : State) : Host.Outcome State Fault Refusal :=
  if !(s.canIssue u 0x70) then stay s
  else
    let w := s.iw u
    let src := s.idx u (bits w 28 20) (fRa w)
    let rd := byteRows src (src + 64)
    if (s.core u).heldBy 3 rd [] || (s.core u).loadPending [bits w 24 4] false then stay s
    else
      let bad := firstBad (offChecks src 64 ++ [(s.noSlot6 u, St.wheelRole)])
      if bad ≠ 0 then fin ((s.tick u dt).reject u bad)
      else fin (s.issueFront u dt ecc (s.mkDisp u .dload src 0 0 0 [] none) rd [])

/-- ULOAD (R381). -/
def execUload (u : CoreId) (dt : Nat) (ecc : List EccErr) (s : State) : Host.Outcome State Fault Refusal :=
  if !(s.canIssue u 0x71) then stay s
  else
    let w := s.iw u
    let src := s.idx u (bits w 44 20) (fRa w)
    let nw := bits w 34 10
    let rd := byteRows src (src + 4 * (nw + 1))
    if (s.core u).heldBy 3 rd [] then stay s
    else
      let bad := firstBad ([(decide (1024 < bits w 24 10 + nw + 1), St.opBad)] ++ offChecks src 64 ++ [(s.noSlot6 u, St.wheelRole)])
      if bad ≠ 0 then fin ((s.tick u dt).reject u bad)
      else fin (s.issueFront u dt ecc (s.mkDisp u .uload src 0 0 0 [] none) rd [])

/-- COUNT (R383, R918). -/
def execCount (u : CoreId) (dt : Nat) (ecc : List EccErr) (s : State) : Host.Outcome State Fault Refusal :=
  if !(s.canIssue u 0x72) then stay s
  else
    let w := s.iw u
    let slot := bits w 24 4
    let l0 := s.idx u (bits w 28 24) (fRa w)
    let nl := cntNl w
    let dst := s.idx u (bits w 76 20) (fRb w)
    let ds := s.descOf u slot
    let rd := s.opRows u ds l0 (min (nl + 1) (ds.lines - l0)) 0 ds.len
    let wr := byteRows dst (dst + 4 * (nl + 1))
    let c := s.core u
    if c.heldBy 3 rd wr || c.loadPending [slot] (decide (ds.layout = 15)) then stay s
    else
      let bad := firstBad (offChecks dst 8 ++ [(decide (ds.lines ≤ l0 + nl), St.idxRange), (ds.bad, St.descBad),
        (!(decide (ds.fmt = 0) || isOperand ds.fmt) || ds.scaleRole, St.fmtRole), (s.noSlot6 u, St.wheelRole)])
      if bad ≠ 0 then fin ((s.tick u dt).reject u bad)
      else fin (s.issueFront u dt ecc (s.mkDisp u .count l0 dst 0 0 [s.dslot u slot] none) rd wr)

/-- The checks of a MERGE at issue (R354, R384, R909, R918). -/
def State.mergeCheck (s : State) (u w t l0 : Nat) (a b o : Desc) : Nat :=
  let src (d : Desc) : Bool := decide (d.fmt = 0) || isOperand d.fmt
  let of_ := tOfmt t
  firstBad [(decide (6 ≤ mrgComb w), St.opBad), ([a, b, o].any (fun d => decide (d.lines ≤ l0 + mrgNl w)), St.idxRange), ([a, b, o].any Desc.bad, St.descBad),
    (!(src a) || !(src b) || !(isOutput of_) || !(isOutput o.fmt) || [a, b, o].any Desc.scaleRole, St.fmtRole),
    (mustScale of_ && !o.bscale, St.scaleMissing), (decide (o.fmt ≠ of_) || decide (a.fmt ≠ b.fmt), St.fmtMixed),
    (decide (a.linek ≠ b.linek) || decide (a.linek ≠ o.linek) || decide (a.len ≠ b.len) || decide (a.len ≠ o.len) || decide (3 < o.layout), St.layoutRole),
    (s.noSlot6 u, St.wheelRole)]

/-- MERGE (R202, R384). -/
def execMerge (u : CoreId) (dt : Nat) (ecc : List EccErr) (s : State) : Host.Outcome State Fault Refusal :=
  if !(s.canIssue u 0x73) then stay s
  else
    let w := s.iw u
    let l0 := s.idx u (bits w 39 24) (fRa w)
    let a := s.descOf u (mrgA w)
    let b := s.descOf u (mrgB w)
    let o := s.descOf u (mrgO w)
    let n := mrgNl w + 1
    let rd := s.opRows u a l0 (min n (a.lines - l0)) 0 a.len ++ s.opRows u b l0 (min n (b.lines - l0)) 0 b.len
      ++ (if o.ptrOut && decide (l0 ≠ 0) then byteRows (o.ptrB + 4 * l0) (o.ptrB + 4 * l0 + 4) else [])
    let wr := o.outRows l0 n o.len
    let c := s.core u
    if c.heldBy 3 rd wr || c.loadPending [mrgA w, mrgB w, mrgO w] (decide (a.layout = 15) || decide (b.layout = 15)) then stay s
    else
      let bad := s.mergeCheck u w (s.tc u 0) l0 a b o
      if bad ≠ 0 then fin ((s.tick u dt).reject u bad)
      else fin (s.issueFront u dt ecc (s.mkDisp u .merge l0 0 0 0 [s.dslot u (mrgA w), s.dslot u (mrgB w), s.dslot u (mrgO w)] none) rd wr)

end Sys2Proof.Machine
end

