-- ==== Sys2Proof/Machine/HostOps.lean ====
section
/-! DEFINITION. Packets and statuses (15_host_partitions_and_commands.md): the fields of a packet, the checks at its start, starting in ring
order, and completion. -/

namespace Sys2Proof.Machine

/-! ### Packets -/

/-- The header (Table 15-3). -/
def Packet.opcode (p : Packet) : Nat := field p.bytes 0 2
def Packet.fence (p : Packet) : Bool := (field p.bytes 2 2).testBit 0
def Packet.nocomp (p : Packet) : Bool := (field p.bytes 2 2).testBit 1
def Packet.urgent (p : Packet) : Bool := (field p.bytes 2 2).testBit 2
def Packet.length (p : Packet) : Nat := field p.bytes 4 2
def Packet.htag (p : Packet) : Nat := field p.bytes 6 2
def Packet.part (p : Packet) : Nat := bits (field p.bytes 8 1) 0 4
def Packet.chip (p : Packet) : Bool := (field p.bytes 8 1).testBit 4

/-- Bytes of the payload, by packet offset. -/
def Packet.get (p : Packet) (i n : Nat) : Nat := field p.bytes i n

/-- The packet of a number. -/
def State.packet (s : State) (pid : Nat) : Option Packet := s.host.packets.find? (fun p => decide (p.pid = pid))

/-- Changes a packet's record. -/
def State.setPacket (s : State) (x : Packet) : State :=
  { s with host := { s.host with packets := s.host.packets.map (fun p => if p.pid = x.pid then x else p) } }

/-- The fast path serves LAUNCH, SLUICE_OP and QUEUE_KICK. -/
def fastOp (op : Nat) : Bool := decide (0x100 ≤ op) && decide (op ≤ 0x102)

/-- The fields that Table 15-5, 15-6 or 15-9 gives an opcode's payload, as (byte offset, first bit, width). -/
def payloadFields (op nwin nw : Nat) : List (Nat × Nat × Nat) :=
  if op = 0x0002 then [(0x10, 0, 8), (0x18, 0, 64)]
  else if op = 0x0003 then [(0x10, 0, 8), (0x20, 0, 128), (0x30, 0, 24)]
  else if op = 0x0010 then
    [(0x10, 0, 32), (0x14, 0, 8), (0x15, 0, 4), (0x16, 0, 14), (0x18, 0, 15), (0x1C, 0, 16), (0x20, 0, 20), (0x24, 0, 4), (0x25, 0, 4),
     (0x28, 0, 64), (0x30, 0, 14), (0x32, 0, 4), (0x40, 0, 128 * nwin)]
  else if op = 0x0011 then [(0x10, 0, 1), (0x14, 0, 32)]
  else if op = 0x0014 then [(0x10, 0, 8), (0x11, 0, 1), (0x18, 0, 64), (0x20, 0, 64), (0x28, 0, 32)]
  else if op = 0x0020 then
    [(0x10, 0, 5), (0x12, 0, 16), (0x14, 0, 16), (0x16, 0, 8), (0x17, 0, 4), (0x18, 0, 8), (0x20, 0, 128)]
  else if op = 0x0021 then [(0x10, 0, 8), (0x11, 0, 8), (0x12, 0, 8), (0x14, 0, 20), (0x18, 0, 4), (0x19, 0, 4), (0x1A, 0, 4)]
  else if op = 0x0100 then [(0x10, 0, 128), (0x20, 0, 64), (0x28, 0, 64), (0x30, 0, 1), (0x32, 0, 14), (0x32, 15, 1), (0x34, 0, 32)]
  else if op = 0x0101 then [(0x10, 0, 3), (0x10, 7, 1), (0x11, 0, 14), (0x13, 0, 8), (0x18, 0, 64)]
  else if op = 0x0102 then [(0x10, 0, 5), (0x11, 0, 4), (0x20, 0, 64 * (nw + 1))]
  else if op = 0x0103 then [(0x10, 0, 16)]
  else if op = 0x0110 then [(0x10, 0, 64), (0x18, 0, 64), (0x20, 0, 64), (0x28, 0, 2), (0x2A, 0, 14), (0x2A, 15, 1)]
  else if op = 0x0111 then [(0x10, 0, 64), (0x18, 0, 64), (0x20, 0, 8)]
  else if op = 0x0112 then [(0x10, 0, 4), (0x11, 0, 8), (0x12, 0, 8), (0x18, 0, 64)]
  else []

/-- Some bit that no field covers is nonzero. -/
def reservedSet (l : List (Nat × Nat × Nat)) (n : Nat) : Bool := decide (l.foldl (fun n f => putBits n (8 * f.1 + f.2.1) f.2.2 0) n ≠ 0)

/-- An illegal or reserved value in a payload field. -/
def Packet.valueBad (p : Packet) : Bool :=
  let op := p.opcode
  if op = 0x0002 then decide (4 < p.get 0x10 1)
  else if op = 0x0003 then decide (p.get 0x10 1 = 0) || decide (4 < p.get 0x10 1)
  else if op = 0x0010 then
    let n := p.get 0x32 1
    decide (n = 0) || decide (8 < n) || decide (p.length ≠ 64 + 16 * n)
      || (List.range 4).any (fun i => decide (16 < bits (p.get 0x20 4) (5 * i) 5))
      || decide (16384 < p.get 0x16 2 + p.get 0x18 4) || decide (12 < p.get 0x25 1)
      || decide (2 ^ 40 ≤ p.get 0x28 8) || (decide (p.get 0x24 1 ≠ 0) && decide (p.get 0x28 8 % 128 ≠ 0))
      || (List.range n).any (fun w => decide (p.get (0x48 + 16 * w) 8 = 0) || decide (2 ^ 40 < p.get (0x40 + 16 * w) 8 + p.get (0x48 + 16 * w) 8))
  else if op = 0x0014 then decide (1 < p.get 0x10 1) || decide (p.get 0x28 4 = 0) || decide (2 ^ 40 ≤ p.get 0x18 8) || decide (2 ^ 40 ≤ p.get 0x20 8)
  else if op = 0x0020 then decide (3 < p.get 0x18 1)
  else if op = 0x0021 then decide (7 < p.get 0x10 1) || decide (1 < p.get 0x11 1) || decide (7 < p.get 0x12 1)
  else if op = 0x0100 then decide (p.get 0x20 8 % 64 ≠ 0)
  else if op = 0x0101 then decide (4 < bits (p.get 0x10 1) 0 3)
  else if op = 0x0110 then decide (p.get 0x20 8 = 0) || decide (2 ^ 40 < p.get 0x20 8)
  else if op = 0x0111 then decide (p.get 0x20 1 = 0) || decide (2 < p.get 0x20 1) || (decide (p.fn < 16) && decide (p.get 0x18 8 ≠ 0))
  else if op = 0x0112 then decide (256 < p.get 0x11 1 + p.get 0x12 1 + 1)
  else false

/-- The opcode is allowed to the sending function (Table 15-5). -/
def Packet.allowed (p : Packet) : Bool :=
  let op := p.opcode
  let pf := decide (p.fn = 16)
  if op = 0x0000 ∨ op = 0x0002 ∨ (0x0100 ≤ op ∧ op ≤ 0x0103) ∨ (0x0110 ≤ op ∧ op ≤ 0x0112) then true
  else if op = 0x0001 ∨ op = 0x0021 then pf && p.chip
  else if op = 0x0003 then pf || decide (p.get 0x10 1 = 3)
  else if 0x0010 ≤ op ∧ op ≤ 0x0014 then pf
  else if op = 0x0020 then pf || decide (bits (p.get 0x10 1) 0 3 = 0)
  else false

/-- The status of the first check that a packet fails at its start: its opcode (R709), its partition (R708), its reserved bits and values; 0 where
it passes. -/
def Packet.check (p : Packet) : Nat :=
  let op := p.opcode
  let n := ofBytes p.bytes
  let head := putBits (putBits (putBits (putBits (n % 2 ^ 128) 0 16 0) 16 (if op = 0x0100 then 3 else 2) 0) 32 32 0) 64 5 0
  if !p.allowed then St.opcBad
  else if p.fn < 16 ∧ (p.part ≠ p.fn ∨ p.chip = true) then St.partBad
  else if head ≠ 0 ∨ reservedSet (payloadFields op (p.get 0x32 1) (p.get 0x11 1)) (n / 2 ^ 128 * 2 ^ 128) ∨ p.valueBad = true then St.pktBad
  else 0

/-! ### Completion -/

/-- The completion state of ring `r` of a function. -/
def State.cq (s : State) (fn r : Nat) : CqState := tabGet {} (4 * fn + r) s.host.cqs
def State.setCq (s : State) (fn r : Nat) (x : CqState) : State := { s with host := { s.host with cqs := tabSet {} (4 * fn + r) x s.host.cqs } }

/-- A status waits at the completion ring bound to its submission ring (R705, R707). -/
def State.post (s : State) (p : Packet) (status num r0 r1 : Nat) : State :=
  if p.discard || (p.nocomp && decide (status = 0)) then s
  else
    let r := s.reg .cmdSqCq p.fn p.ring
    let x := s.cq p.fn r
    s.setCq p.fn r { x with held := x.held ++ [{ fn := p.fn, ring := p.ring, cq := r, status := status, fast := fastOp p.opcode, tag := p.htag,
                                                 opcode := p.opcode, part := p.get 8 1, num := num, r0 := r0, r1 := r1 }] }

/-- Takes a packet out. -/
def State.dropPacket (s : State) (pid : Nat) : State :=
  { s with host := { s.host with packets := s.host.packets.filter (fun p => decide (p.pid ≠ pid)) } }

/-- Draws a free value. -/
def State.draw64 (s : State) : Nat × State := ((Config.freeValue s.free).toNat, { s with free := s.free + 1 })

/-- A status with results that the manual does not state. -/
def State.postFree (s : State) (p : Packet) (status : Nat) : State :=
  let (r0, s) := s.draw64
  let (r1, s) := s.draw64
  s.post p status 0 r0 r1

/-- Starts the packets of a ring in order (R703): one with FENCE only once no earlier packet of its ring remains. A packet that fails a check at
its start completes at once. `n` bounds the starts. -/
def State.startRing (s : State) (fn ring : Nat) : Nat → State
  | 0 => s
  | n + 1 =>
    let mine := s.host.packets.filter (fun p => decide (p.fn = fn) && decide (p.ring = ring))
    match mine.find? (fun p => !p.started) with
    | none => s
    | some p =>
      if p.fence && mine.any (fun x => x.started) then s
      else
        let st := p.check
        if st = 0 then (s.setPacket { p with started := true }).startRing fn ring n
        else ((s.dropPacket p.pid).postFree p st).startRing fn ring n

/-- Starts what a ring has ready. -/
def State.startPkts (s : State) (fn ring : Nat) : State := s.startRing fn ring (s.host.packets.length + 1)

/-- A packet completes with a status and its results; later packets of its ring may start. -/
def State.finishWith (s : State) (p : Packet) (status num r0 r1 : Nat) : State :=
  ((s.dropPacket p.pid).post p status num r0 r1).startPkts p.fn p.ring

/-- A packet completes with a status; the manual states no results for it, so they are left free. -/
def State.finish (s : State) (p : Packet) (status : Nat) : State :=
  ((s.dropPacket p.pid).postFree p status).startPkts p.fn p.ring

/-- Completes every packet that passes a test. -/
def State.finishAll (s : State) (pick : Packet → Bool) (status : Nat) : State :=
  (s.host.packets.filter pick).foldl (fun s p => s.finish p status) s

/-- In STANDBY the Keeper serves only NOP, QUERY and RESET at once (R770). -/
def State.served (s : State) (op : Nat) : Bool := decide (s.rd .kprPstateState ≠ 2) || decide (op = 0) || decide (op = 2) || decide (op = 3)

/-- The started packet `pid` of opcode `op` that has not begun to wait. -/
def State.ready (s : State) (pid op : Nat) : Option Packet :=
  match s.packet pid with
  | some p => if p.started && decide (p.wait = 0) && decide (p.opcode = op) && s.served op then some p else none
  | none => none

/-- The started packet `pid` of opcode `op`, waiting or not. -/
def State.startedPkt (s : State) (pid op : Nat) : Option Packet :=
  match s.packet pid with
  | some p => if p.started && decide (p.opcode = op) && s.served op then some p else none
  | none => none

/-! ### SLUICE_OP packets -/

/-- The SLUICE_OP packet whose message has this tag. -/
def State.sluicePkt (s : State) (tag : Nat) : Option Packet := s.host.packets.find? (fun p => decide (p.wait = 5) && decide (p.tag = tag))

/-- An acknowledgement, answer or wake of a SLUICE_OP packet (R722): TEST returns its word in RESULT0. -/
def State.sluiceDone (s : State) (tag status val : Nat) : State :=
  match s.sluicePkt tag with
  | some p =>
    if bits (p.get 0x10 1) 0 3 = 2 ∧ status = 0 then
      let (r1, s) := s.draw64
      s.finishWith p 0 0 val r1
    else s.finish p status
  | none => s

end Sys2Proof.Machine
end

