-- ==== Sys2Proof/Machine/Sluice.lean ====
section
/-! DEFINITION. Sluices (12_sluices.md): the operations of the banks, SOP instructions, waits and wakes, and the combining tree. -/

namespace Sys2Proof.Machine

/-! ### Owners and notices -/

/-- The codes of SOP (Table 08-7). -/
def Sop.signal : Nat := 0
def Sop.wait : Nat := 1
def Sop.test : Nat := 2
def Sop.reset : Nat := 3
def Sop.arm : Nat := 4

/-- The partition that owns a sluice. -/
def State.slcOwner (s : State) (i : Nat) : Option Nat := (List.range 16).find? (fun p => s.inSluices p i)

/-- NOTIFY (R853): the owner's VF is told of the sluice. -/
def State.slcNotify (s : State) (i : Nat) : State :=
  if !(cNotify (s.slcCtl i)) then s
  else match s.slcOwner i with
    | none => s
    | some p =>
      let s' := ((s.setReg .notifySluice p 0 i).setReg .notifyPending p 0 1).count .notifyCount p 0 1
      if s.reg .notifyPending p 0 = 0 then s'.emit (.msix p (s.reg .notifyVec p 0)) else s'

/-! ### The combining tree (R583, R584) -/

/-- The parent of this chip at scope `k` and the even link of the pair toward it; none at the root. -/
def State.treeParent (s : State) (k : Nat) : Option (Nat × Nat) :=
  let slot := s.chip % 8
  let tray := s.chip / 8
  let low := tray % 2 ^ k
  if slot ≠ 0 then some (8 * tray, 2 * (slot - 1))
  else if low = 0 then none
  else some (8 * (tray - 2 ^ low.log2), 14 + 2 * low.log2)

/-- The children of a chip at scope `k` with the even links toward them. -/
def treeChildren (chip k : Nat) : List (Nat × Nat) :=
  let tray := chip / 8
  let low := tray % 2 ^ k
  let first := if low = 0 then 0 else low.log2 + 1
  if chip % 8 ≠ 0 then []
  else (List.range 7).map (fun j => (8 * tray + j + 1, 2 * j))
    ++ ((List.range k).filter (fun d => decide (first ≤ d))).map (fun d => (8 * (tray + 2 ^ d), 14 + 2 * d))

/-- A link in UP (Table 13-8). -/
def State.linkUp (s : State) (l : Nat) : Bool := decide (s.reg .linkState 0 l = 2)

/-- A tree message of sluice `i` is lost: TREE_LOST is set (R590), and the Keeper learns which sluice it was (R804). -/
def State.treeGone (s : State) (i : Nat) : State :=
  { (s.wr .slcTreeLost 1) with env := { s.env with treeLost := setAdd i s.env.treeLost } }

/-- Firmware ends every launch that has a waiter on a sluice whose tree message was lost with CHIP_DOWN, after the update of KLK_REACH (R804). -/
def State.endTreeLost (s : State) : State :=
  let lids := (s.waiters.filter (fun w => s.env.treeLost.contains w.num && decide (w.chip = s.chip) && decide (w.core ≤ 128))).filterMap
    (fun w => (s.core w.core).launch)
  let s := { s with env := { s.env with treeLost := [] } }
  lids.dedup.foldl (fun s lid =>
    (((s.host.launches.filter (fun l => decide (l.lid = lid))).flatMap (fun l => l.cores)).foldl (fun s u => s.haltTask u St.chipDown) s)) s

/-- Sends a tree message over the even link of a pair, or the odd one while the even one is down (R588); with neither, or a chip that no route
reaches, TREE_LOST is set (R590). -/
def State.sendTree (s : State) (op : MsgOp) (i : Nat) (dest : Nat × Nat) : State :=
  let l := if s.linkUp dest.2 then some dest.2 else if s.linkUp (dest.2 + 1) then some (dest.2 + 1) else none
  match l with
  | some l =>
    if s.chipUp dest.1 then
      s.send { op := op, srcChip := s.chip, src := bankIsland i, dstChip := dest.1, dst := bankIsland i, sub := l, addr := i,
               flight := ((s.slcOwner i).map (fun p => s.flightOf p)).getD 0 }
    else (s.treeGone i).endTreeLost
  | none => s.treeGone i

/-- A release (R570, R587): ARRIVED loses EXPECT, PHASE advances, SENT clears, NOTIFY applies, and a GLOBAL sluice passes it on. -/
def State.slcRelease (s : State) (i : Nat) : State :=
  let n := s.slcCount i
  let ctl := s.slcCtl i
  let wrap := decide (bPhase n = 2 ^ 32 - 1)
  let s := s.setCount i ((bPhase n + 1) % 2 ^ 32 * 65536 + bExpect n * 256 + (bArrived n - bExpect n))
  let s := s.setCtl i (putBits ctl 8 1 0)
  let s := if wrap then s.slcOverflow i else s
  let s := s.slcNotify i
  if cGlobal ctl then (treeChildren s.chip (cScope ctl)).foldl (fun s c => s.sendTree .treeRelease i c) s else s

/-- The release checks of R570 and R585, repeated while ARRIVED reaches EXPECT; `n` bounds the releases. -/
def State.slcCheck (s : State) (i : Nat) : Nat → State
  | 0 => s
  | n + 1 =>
    let v := s.slcCount i
    let ctl := s.slcCtl i
    if cMode ctl ≠ 2 ∨ bArrived v < bExpect v then s
    else if !(cGlobal ctl) then (if bExpect v = 0 then s else (s.slcRelease i).slcCheck i n)
    else match s.treeParent (cScope ctl) with
      | some p => if cSent ctl then s else (s.setCtl i (putBits ctl 8 1 1)).sendTree .treeArrive i p
      | none => if bExpect v = 0 then s.slcRelease i else (s.slcRelease i).slcCheck i n

/-! ### Operations at a bank (Table 12-2) -/

/-- SIGNAL(+n) before its checks. -/
def State.slcSignal (s : State) (i n : Nat) : State :=
  let v := s.slcCount i
  let ctl := s.slcCtl i
  if cMode ctl = 2 then
    let a := bArrived v + n
    let s := s.setCount i (v / 256 * 256 + min a 255)
    if 255 < a then s.slcOverflow i else s
  else
    let x := v + n
    let s := s.setCount i (min x (2 ^ 48 - 1))
    let s := if 2 ^ 48 ≤ x then s.slcOverflow i else s
    if cMode ctl = 3 ∧ cArmed ctl then (s.setCtl i (putBits (s.slcCtl i) 7 1 0)).slcNotify i else s

/-- The scope of an ARM includes a chip marked 0 in KLK_REACH (R805). -/
def State.scopeLost (s : State) (k : Nat) : Bool :=
  let first := s.chip / 8 / 2 ^ k * 2 ^ k
  (List.range (8 * 2 ^ k)).any (fun j => !(s.chipUp (8 * first + j)))

/-- An ARM that is refused (R571, R572, R805). -/
def State.armBad (s : State) (ctl v : Nat) : Bool :=
  (cGlobal ctl && (decide (cMode ctl ≠ 2) || decide (s.rd .klkTrayLog2 < cScope ctl) || s.scopeLost (cScope ctl)))
    || (decide (cMode ctl = 2) && !(cGlobal ctl) && decide (bExpect v = 0))

/-- A RESET that is refused (R571). -/
def State.resetBad (s : State) (i v : Nat) : Bool := decide (cMode (s.slcCtl i) = 2) && !(cGlobal (s.slcCtl i)) && decide (bExpect v = 0)

/-- A refused operation leaves the sluice unchanged. -/
def State.slcRefuse (s : State) (i : Nat) : State := (s.wr .slcRefused 1).wr .slcLastNum i

/-- After an operation: release checks, then the waiters (R570, R574, R585). A GLOBAL sluice is checked after every operation. -/
def State.slcAfter (s : State) (i op : Nat) : State :=
  let s := if op = Sop.signal ∨ cGlobal (s.slcCtl i) then s.slcCheck i 256 else s
  s.serveWaiters i

/-- An operation takes effect (R566): the status is SLC_MODE where it is refused. -/
def State.slcApply (s : State) (i op val : Nat) : State × Nat :=
  let v := val % 2 ^ 48
  if op = Sop.signal then ((s.slcSignal i v).slcAfter i op, 0)
  else if op = Sop.reset then
    if s.resetBad i v then (s.slcRefuse i, St.slcMode)
    else (((s.setCount i v).setCtl i (putBits (s.slcCtl i) 8 2 0)).slcAfter i op, 0)
  else if op = Sop.arm then
    let ctl := putBits (s.slcCtl i) 0 8 val
    if s.armBad ctl (s.slcCount i) then (s.slcRefuse i, St.slcMode) else ((s.setCtl i ctl).slcAfter i op, 0)
  else (s, 0)

/-- What TEST answers (R401). -/
def State.slcTest (s : State) (i : Nat) : Nat := s.slcCtl i * 2 ^ 48 + s.slcCount i

/-- The partition that owns a sluice is powering down, that is STOPPING (R734, Table 15-10). -/
def State.slcDown (s : State) (i : Nat) : Option Nat :=
  match s.slcOwner i with
  | some p => if s.reg .partState 0 p = 2 then some p else none
  | none => none

/-- A remote operation may act (R565): the sluice lies in an enabled partition's range with the same FLIGHT. -/
def State.remoteOk (s : State) (m : Msg) : Bool :=
  match s.slcOwner m.addr with
  | some p => decide (s.reg .partState 0 p ≠ 0) && decide (s.flightOf p = m.flight)
  | none => false

/-- Answers a sluice operation. -/
def State.slcReply (s : State) (m : Msg) (code val : Nat) : State :=
  s.send { op := .slcAck, srcChip := s.chip, src := m.dst, dstChip := m.srcChip, dst := m.src, dsub := m.sub, part := m.part,
           flight := m.flight, tag := m.tag, code := code, arg := val, addr := m.addr }

/-- A sluice operation or waiter record that came as a remote one; one of length 2 is the test of a wait-table entry that its bank refused
(R575). -/
def Msg.remote (m : Msg) : Bool := decide (m.len ≠ 0)

/-- The message of a posted operation still waits for the instructions that ORD names (R399). -/
def State.ordWaits (s : State) (m : Msg) : Bool :=
  if m.srcChip ≠ s.chip ∨ 128 < m.src then false
  else
    let c := s.core m.src
    let busy := (c.qFeed ++ c.qDrain ++ c.qDma ++ c.qFront).map (fun d => d.id) ++ c.xfers.map (fun x => x.id) ++ c.heldMma.map (fun h => h.id)
    c.posted.any (fun p => decide (p.tag = m.tag) && p.ord.any (fun i => busy.contains i))

/-- Sluice message `k` reaches its bank: those of one source to one sluice arrive in the order of issue (R580), those of one stop to one bank in
order (R26), and one that ORD holds is not sent yet. -/
def State.slcArrival (s : State) (op : MsgOp) (k : Nat) : Option Msg :=
  match s.arrival op k with
  | some m =>
    let before := (s.net.take k).any (fun x => (decide (x.op = .sop) || decide (x.op = .waiter)) && decide (x.srcChip = m.srcChip)
      && decide (x.src = m.src) && decide (x.dstChip = m.dstChip) && decide (x.addr = m.addr))
    if ¬ before ∧ ¬ s.ordWaits m then some m else none
  | none => none

/-- A remote message for a partition that is powering down (Table 15-10). -/
def State.downNack (s : State) (m : Msg) (p : Nat) : State := (s.bump .partDownNack 0 p 1).answer m .nack 3 [] false 0

/-- A drop under R565. -/
def State.slcDrop (s : State) (m : Msg) : State :=
  let s := s.bump .slcDrops 0 0 1
  if m.srcChip = s.chip then s.slcReply m St.slcRemote 0 else s.answer m .nack 2 [] false 0

/-- A sluice operation at its bank. -/
def State.sopArrive (s : State) (m : Msg) : State :=
  if m.remote && !(s.remoteOk m) then s.slcDrop m
  else match s.slcDown m.addr with
    | some p =>
      if m.remote ∧ m.srcChip ≠ s.chip then s.downNack m p
      else (s.bump .partAbsorbed 0 p 1).slcReply m 0 0
    | none =>
      if m.code = Sop.test then s.slcReply m 0 (s.slcTest m.addr)
      else
        let r := s.slcApply m.addr m.code m.arg
        r.1.slcReply m r.2 0

/-- SOP_MESSAGE (R563, R565, R566): message `k` is a sluice operation that reaches its bank. -/
def execSopMessage (k : Nat) (s : State) : Host.Outcome State Fault Refusal :=
  match s.slcArrival .sop k with
  | some m => fin ((s.take k).sopArrive m)
  | none => stay s

/-- The answer of a bank that is full: the core's wait-table entry will test the sluice itself (R575). -/
def waitRefused : Nat := 255

/-- The test of an entry whose record was refused (R575): a wake where the condition holds, in SEMAPHORE mode with the acquisition; else a refusal. -/
def State.pollArrive (s : State) (m : Msg) (w : Waiter) : State :=
  if s.slcHolds m.addr m.arg then
    let s := if cMode (s.slcCtl m.addr) = 1 then s.setCount m.addr (s.slcCount m.addr - m.arg) else s
    s.sendWake w 0
  else s.slcReply m waitRefused 0

/-- A waiter record at its bank (R574, R575). -/
def State.waiterArrive (s : State) (m : Msg) : State :=
  let w : Waiter := ⟨m.addr, m.srcChip, m.src, m.sub, m.arg, m.part, false⟩
  if m.remote && !(s.remoteOk m) then s.slcDrop m
  else match s.slcDown m.addr with
    | some p =>
      if m.remote ∧ m.srcChip ≠ s.chip then s.downNack m p
      else (s.bump .partAbsorbed 0 p 1).sendWake w St.partDown
    | none =>
      if m.len = 2 then s.pollArrive m w
      else if 4096 ≤ (s.waiters.filter (fun x => !x.taken && decide (x.num / 4096 = m.addr / 4096))).length then s.slcReply m waitRefused 0
      else ({ s with waiters := s.waiters ++ [w] }).serveWaiters m.addr

/-- WAITER_RECORD (R574). -/
def execWaiterRecord (k : Nat) (s : State) : Host.Outcome State Fault Refusal :=
  match s.slcArrival .waiter k with
  | some m => fin ((s.take k).waiterArrive m)
  | none => stay s

/-! ### At the core -/

/-- Takes the GATE entries of a wait-table entry out of the dispatch queues (R402), and runs what they held in the sparse front end. -/
def State.openGate (s : State) (u wid : Nat) : State :=
  let c := s.core u
  let keep (d : Disp) : Bool := !(decide (d.kind = .gate wid))
  let s := s.setCore u { c with qFeed := c.qFeed.filter keep, qDrain := c.qDrain.filter keep, qDma := c.qDma.filter keep,
                                qFront := c.qFront.filter keep }
  s.runFront u 17

/-- A wait-table entry's condition is met, or it ends with a status: the entry is freed and what it holds goes on (R403, R574). The status of a
GATE stands before those of the instructions behind it (R415, R420). A WAIT of a halted core stays unissued until the core goes on (R424). -/
def State.waitDone (s : State) (u wid code : Nat) : State :=
  let c := s.core u
  match c.waits.find? (fun w => decide (w.wid = wid)) with
  | none => s
  | some w =>
    let rest := c.waits.filter (fun x => decide (x.wid ≠ wid))
    if w.gate then ((s.setCore u { c with waits := rest }).raise u code w.pc).openGate u wid
    else if c.hold ≠ .wait wid then s.setCore u { c with waits := rest }
    else if s.reg .dbgHalted u 0 = 1 ∨ c.capture.isSome = true then
      s.setCore u { c with waits := c.waits.map (fun x => if x.wid = wid then { x with state := 2, code := code } else x) }
    else (((s.setCore u { c with waits := rest, hold := .none }).issued u false 0).next u).raise u code w.pc

/-- A core goes on after a halt or a STEP (R424, R810): a WAIT whose wake has come is checked again, and what waits in the sparse front end
starts. -/
def State.goOn (s : State) (u : Nat) : State :=
  let s := match (s.core u).waits.find? (fun w => decide (w.state = 2)) with
    | some w => s.waitDone u w.wid w.code
    | none => s
  s.runFront u 17

/-- A wake at a core: the acquisition it delivers is complete. -/
def State.wakeCore (s : State) (m : Msg) : State :=
  let s := { s with waiters := s.waiters.filter (fun w => !(w.taken && decide (w.chip = s.chip) && decide (w.core = m.dst) && decide (w.wid = m.dsub))) }
  (s.traceEv m.dst 4 m.addr m.arg).waitDone m.dst m.dsub m.code

/-- A posted operation of a core completes (R578, R579). -/
def State.postedDone (s : State) (u tag code : Nat) : State :=
  let c := s.core u
  match c.posted.find? (fun p => decide (p.tag = tag)) with
  | none => s
  | some p => ((s.setCore u { c with posted := c.posted.filter (fun x => decide (x.tag ≠ tag)) }).raise u code p.pc).tryEnd u

/-- A remote TEST brings its value (R401). -/
def State.testDone (s : State) (u code val : Nat) : State :=
  let pc := s.pc u
  let rd := fRd (s.iw u)
  let s := (s.setCore u { s.core u with hold := .none }).issued u false 0
  let s := if code = 0 then s.setSreg u rd val else s
  ((s.next u).raise u code pc).tryEnd u

/-- An acknowledgement or refusal at a core (R575, R578). -/
def State.ackCore (s : State) (m : Msg) : State :=
  let u := m.dst
  if m.code = waitRefused then
    let c := s.core u
    (s.setCore u { c with waits := c.waits.map (fun w => if w.wid = m.dsub then { w with state := 1 } else w) }).wr .slcPoll 1
  else if (s.core u).hold = .test m.tag then s.testDone u m.code m.arg
  else if (s.core u).posted.any (fun p => decide (p.tag = m.tag)) then s.postedDone u m.tag m.code
  else if m.code ≠ 0 then s.waitDone u m.dsub m.code else s

/-- The wait-table number of an entry is the tag of its record. -/
def State.newWait (s : State) (u : Nat) (gate : Bool) (chip num val : Nat) (remote : Bool) : Nat × State :=
  let (wid, s) := s.fresh
  let c := s.core u
  let s := s.setCore u { c with waits := c.waits ++ [⟨wid, gate, chip, num, val, s.pc u, 0, 0⟩] }
  let p := s.corePart u
  (wid, s.send { op := .waiter, srcChip := s.chip, src := u, sub := wid, dstChip := chip, dst := bankIsland num, part := p,
                 flight := if p < 16 then s.flightOf p else 0, tag := wid, addr := num, arg := val, len := b2n remote })

/-- The other fields of an SOP (Table 08-7). -/
def sRemote (w : Nat) : Bool := w.testBit 49
def sOrd (w : Nat) : Nat := bits w 50 4
def sGq (w : Nat) : Nat := bits w 54 4
def State.sNum (s : State) (u w : Nat) : Nat := s.idx u (bits w 27 14) (fRa w)
def State.sChip (s : State) (w : Nat) : Nat := if sRemote w then bits w 41 8 else s.chip

/-- The issue check of R404. A remote number keeps the 14 bits that its message carries. -/
def State.sopBad (s : State) (u w : Nat) : Nat :=
  firstBad [(decide (6 ≤ sOp w) || (decide (sOp w = 5) && decide (sGq w = 0)), St.opBad),
    (!(sRemote w) && !(s.ownSluice u (s.sNum u w)), St.slcBad)]
def State.sopTarget (s : State) (u w : Nat) : Nat := if sRemote w then s.sNum u w % 16384 else s.sNum u w

/-- Core `u` can issue an SOP whose OP is `op`. -/
def State.sopIssue (s : State) (u op : Nat) : Bool := s.canIssue u 0xA0 && decide (sOp (s.iw u) = op) && decide ((s.core u).hold = .none)

/-- The instructions that ORD makes a posted operation follow (R399). -/
def Core.ordIds (c : Core) (ord : Nat) : List Nat :=
  (onesOf 4 ord).flatMap (fun q => (c.queue q).map (fun d => d.id) ++ (if q = 2 then c.xfers.map (fun x => x.id) else [])
    ++ (if q = 0 then c.heldMma.map (fun h => h.id) else []))

/-- A posted SIGNAL, RESET or ARM issues (R399). -/
def State.sopPost (s : State) (u dt op : Nat) : Host.Outcome State Fault Refusal :=
  if !(s.sopIssue u op) then stay s
  else
    let w := s.iw u
    let bad := s.sopBad u w
    if bad ≠ 0 then fin ((s.tick u dt).reject u bad)
    else
      let (tag, s) := s.fresh
      let c := s.core u
      let num := s.sopTarget u w
      let chip := s.sChip w
      let p := s.corePart u
      let s := s.setCore u { c with posted := c.posted ++ [⟨tag, s.pc u, c.ordIds (sOrd w), op, chip, num, fImm w, tag⟩] }
      let s := s.send { op := .sop, srcChip := s.chip, src := u, dstChip := chip, dst := bankIsland num, part := p,
                        flight := if p < 16 then s.flightOf p else 0, tag := tag, addr := num, code := op, arg := fImm w,
                        len := b2n (sRemote w) }
      fin (s.plainDone u dt)

/-- SOP SIGNAL (R399). -/
def execSopSignal (u : CoreId) (dt : Nat) (s : State) : Host.Outcome State Fault Refusal := s.sopPost u dt 0

/-- SOP RESET (R399). -/
def execSopReset (u : CoreId) (dt : Nat) (s : State) : Host.Outcome State Fault Refusal := s.sopPost u dt 3

/-- SOP ARM (R399). -/
def execSopArm (u : CoreId) (dt : Nat) (s : State) : Host.Outcome State Fault Refusal := s.sopPost u dt 4

/-- SOP WAIT (R400, R403, R574): a waiter record goes to the bank and the sequencer is held. -/
def execSopWait (u : CoreId) (dt : Nat) (s : State) : Host.Outcome State Fault Refusal :=
  if !(s.sopIssue u 1) then stay s
  else
    let w := s.iw u
    let bad := s.sopBad u w
    if bad ≠ 0 then fin ((s.tick u dt).reject u bad)
    else if 64 ≤ (s.core u).waits.length then stay s
    else
      let (wid, s) := (s.tick u dt).newWait u false (s.sChip w) (s.sopTarget u w) (fImm w % 2 ^ 48) (sRemote w)
      fin (s.setCore u { s.core u with hold := .wait wid })

/-- An earlier operation of core `u` on a sluice has not taken effect yet (R580). -/
def State.slcBehind (s : State) (u chip num : Nat) : Bool :=
  s.net.any (fun m => (decide (m.op = .sop) || decide (m.op = .waiter)) && decide (m.srcChip = s.chip) && decide (m.src = u)
    && decide (m.dstChip = chip) && decide (m.addr = num))

/-- SOP TEST (R401, R580): of a sluice on this chip at once, behind the core's earlier operations on it; of another chip's, the sequencer is held until its answer comes. -/
def execSopTest (u : CoreId) (dt : Nat) (s : State) : Host.Outcome State Fault Refusal :=
  if !(s.sopIssue u 2) then stay s
  else
    let w := s.iw u
    let bad := s.sopBad u w
    if bad ≠ 0 then fin ((s.tick u dt).reject u bad)
    else if !(sRemote w) then
      if s.slcBehind u s.chip (s.sNum u w) then stay s
      else match s.slcDown (s.sNum u w) with
      | some p => fin ((s.bump .partAbsorbed 0 p 1).scalarDone u dt (fRd w) 0)
      | none => fin (s.scalarDone u dt (fRd w) (s.slcTest (s.sNum u w)))
    else
      let (tag, s) := (s.tick u dt).fresh
      let num := s.sopTarget u w
      let p := s.corePart u
      let s := s.setCore u { s.core u with hold := .test tag }
      fin (s.send { op := .sop, srcChip := s.chip, src := u, dstChip := s.sChip w, dst := bankIsland num, part := p,
                    flight := if p < 16 then s.flightOf p else 0, tag := tag, addr := num, code := 2, len := 1 })

/-- SOP GATE (R402, R403): one entry in each named dispatch queue. -/
def execSopGate (u : CoreId) (dt : Nat) (s : State) : Host.Outcome State Fault Refusal :=
  if !(s.sopIssue u 5) then stay s
  else
    let w := s.iw u
    let bad := s.sopBad u w
    let c := s.core u
    if (onesOf 4 (sGq w)).any (fun q => decide (16 ≤ (c.queue q).length)) then stay s
    else if bad ≠ 0 then fin ((s.tick u dt).reject u bad)
    else if 64 ≤ c.waits.length then stay s
    else
      let (wid, s) := (s.tick u dt).newWait u true (s.sChip w) (s.sopTarget u w) (fImm w % 2 ^ 48) (sRemote w)
      let s := (onesOf 4 (sGq w)).foldl (fun s q => s.dispatch u q (s.mkDisp u (.gate wid) 0 0 0 0 [] none) [] []) s
      fin ((s.issued u false 0).next u)

/-- SLUICE_POLL (R575): the entry `id` of core `u`'s wait table, whose record its bank refused, tests its sluice; in SEMAPHORE mode the
successful test acquires. A sluice of another chip is tested by a message. -/
def execSluicePoll (u : CoreId) (id : Nat) (s : State) : Host.Outcome State Fault Refusal :=
  match (s.core u).waits.find? (fun w => decide (w.wid = id) && decide (w.state = 1)) with
  | none => stay s
  | some w =>
    if w.chip ≠ s.chip then
      let p := s.corePart u
      let s := s.setCore u { s.core u with waits := (s.core u).waits.map (fun x => if x.wid = id then { x with state := 0 } else x) }
      fin (s.send { op := .waiter, srcChip := s.chip, src := u, sub := id, dstChip := w.chip, dst := bankIsland w.num, part := p,
                    flight := if p < 16 then s.flightOf p else 0, tag := id, addr := w.num, arg := w.val, len := 2 })
    else if s.slcHolds w.num w.val then
      let s := if cMode (s.slcCtl w.num) = 1 then s.setCount w.num (s.slcCount w.num - w.val) else s
      fin (s.waitDone u id 0)
    else stay s

/-- TREE_ARRIVE (R586): a child's arrival acts as SIGNAL(+1). -/
def execTreeArrive (k : Nat) (s : State) : Host.Outcome State Fault Refusal :=
  match s.arrival .treeArrive k with
  | some m =>
    let s := s.take k
    match s.slcDown m.addr with
    | some p => fin (s.bump .partAbsorbed 0 p 1)
    | none => fin (s.slcApply m.addr Sop.signal 1).1
  | none => stay s

/-- TREE_RELEASE (R587): the release acts here, is passed on, and the check of R585 is made again. -/
def execTreeRelease (k : Nat) (s : State) : Host.Outcome State Fault Refusal :=
  match s.arrival .treeRelease k with
  | some m =>
    let s := s.take k
    match s.slcDown m.addr with
    | some p => fin (s.bump .partAbsorbed 0 p 1)
    | none => fin (((s.slcRelease m.addr).slcCheck m.addr 256).serveWaiters m.addr)
  | none => stay s

end Sys2Proof.Machine
end

