-- ==== Sys2Proof/Machine/Wire.lean ====
section
/-! DEFINITION. Messages and flits on a Kolnal link (13_kolnal_links.md Tables 13-3 to 13-5) and the answer to a partner's violation
(R632 to R634). Where Table 13-4 gives an operation's information no place, the payload layout is the model's own. -/

namespace Sys2Proof.Machine

/-! ### CRC and RS frames -/

/-- One byte of the reflected CRC-32 (R608). -/
def crc32Byte (c : Nat) (b : Byte) : Nat :=
  (List.range 8).foldl (fun c _ => if c % 2 = 1 then c / 2 ^^^ 0xEDB88320 else c / 2) (c ^^^ b.toNat)

/-- The CRC-32 of R608. -/
def crc32 (l : Bytes) : Nat := (l.foldl crc32Byte 0xFFFFFFFF) ^^^ 0xFFFFFFFF

/-- The CRC of a flit: bytes [11:0] and then [255:16]. -/
def flitCrc (f : Bytes) : Nat := crc32 (f.take 12 ++ f.drop 16)

/-! ### Headers -/

/-- SRC_UNIT of an island number of Table 02-10: its mesh stop and its place there. -/
def unitCode (i : Nat) : Nat :=
  if i < 128 then i / 4 + i % 4 * 64
  else if i < 188 then i - 128
  else if i < 208 then i - 188 + 32
  else if 233 ≤ i then 58 + (i - 233) / 2 + (i - 233) % 2 * 64 else 56

/-- The island that a SRC_UNIT names. -/
def unitOf (c : Nat) : Nat :=
  let stop := c % 64
  let n := c / 64 % 32
  if stop < 32 then 4 * stop + n % 4
  else if stop < 52 then 188 + (stop - 32)
  else if stop < 58 then 128 + stop
  else 233 + 2 * (stop - 58) % 4 + n % 2

/-- The message of an OP code. -/
def opOfByte (b : Nat) : Option MsgOp :=
  [MsgOp.read, .write, .atomic, .readData, .complete, .credit, .nack, .slcAck, .flush, .sop, .wake, .treeArrive, .treeRelease, .ledgerAdd,
   .ledgerSettle, .item, .paceTime, .rewrite, .keeper].find? (fun o => decide (o.byte = b))

/-- The ADDR field. -/
def Msg.addrField (m : Msg) : Nat :=
  match m.op with
  | .read => m.addr / 16 * 16
  | .sop => m.addr % 16384 + m.code * 65536
  | .waiter => m.addr % 16384 + (if m.len = 2 then 6 else 1) * 65536
  | .wake => m.addr % 16384 + m.code * 2 ^ 32
  | .slcAck => m.addr % 16384 + m.code * 2 ^ 32
  | .item => m.dst % 128 + m.dsub % 16 * 128 + m.arg % 128 * 2048 + m.sub % 16 * 2 ^ 18
  | .credit => m.dst % 128 + m.sub % 16 * 128 + m.dsub % 16 * 2 ^ 18
  | .flush => m.dst % 128 + m.sub % 16 * 128 + m.arg % 128 * 2048 + m.dsub % 16 * 2 ^ 18
  | .readData => m.code + m.events * 256
  | .complete => m.code + m.events * 256
  | .paceTime => 0
  | .rewrite => 0
  | _ => m.addr

/-- The ARG byte. -/
def Msg.argField (m : Msg) : Nat :=
  match m.op with
  | .read => ceilDiv (m.addr % 16 + m.len) 16 - 1
  | .write => b2n m.poison
  | .readData => b2n m.poison
  | .item => b2n m.poison
  | .atomic => m.code
  | .ledgerAdd => m.code
  | .ledgerSettle => m.code
  | .credit => m.arg
  | .nack => m.code
  | .keeper => m.code
  | _ => 0

/-- A tag as sent: bit 15 of a WRITE's says that its payload begins with the extra slot. -/
def Msg.tagField (m : Msg) : Nat := if m.op = .write then m.tag % 32768 + 32768 * b2n m.extra else m.tag

/-- A message in slots (R611, Table 13-4). -/
def Msg.toSlots (m : Msg) (lane : Nat) : Bytes :=
  toBytes 1 (m.op.vc + 8 * lane + 16 * (m.slots - 1)) ++ toBytes 1 m.op.byte ++ toBytes 1 m.dstChip ++ toBytes 1 m.srcChip
    ++ toBytes 2 (unitCode m.src) ++ toBytes 2 m.tagField ++ toBytes 5 m.addrField ++ toBytes 1 m.argField ++ toBytes 2 m.flight
    ++ sliceBytes m.payload 0 (16 * (m.slots - 1))

/-- Reads the fields of a header of operation `op`; `b` holds the message's slots, `l` is the link it came over. -/
def parseMsg (op : MsgOp) (b : Bytes) (l : Nat) : Msg :=
  let ad := field b 8 5
  let ag := field b 13 1
  let tag := field b 6 2
  let pay := b.drop 16
  let m : Msg := { op := op, srcChip := field b 3 1, src := unitOf (field b 4 2), dstChip := field b 2 1, tag := tag, addr := ad,
                   flight := field b 14 2, lane := bits (field b 0 1) 3 1, link := l }
  match op with
  | .read => { m with len := 16 * (ag + 1) }
  | .write =>
    if tag < 32768 then { m with len := pay.length, data := pay, poison := decide (ag % 2 = 1) }
    else { m with tag := tag % 32768, len := field pay 0 2, data := (pay.drop 16).take (field pay 0 2), poison := decide (ag % 2 = 1) }
  | .sop => { m with op := if bits ad 16 3 = 1 ∨ bits ad 16 3 = 6 then .waiter else .sop, addr := ad % 16384, code := bits ad 16 3, arg := field pay 0 8,
                     sub := tag, len := if bits ad 16 3 = 6 then 2 else 1, dst := bankIsland (ad % 16384) }
  | .waiter => m
  | .wake => { m with addr := ad % 16384, code := bits ad 32 8, arg := field pay 0 8, dsub := tag }
  | .slcAck => { m with addr := ad % 16384, code := bits ad 32 8, arg := field pay 0 8, dsub := tag }
  | .treeArrive => { m with addr := ad % 16384, dst := bankIsland (ad % 16384), sub := l }
  | .treeRelease => { m with addr := ad % 16384, dst := bankIsland (ad % 16384), sub := l }
  | .item => { m with dst := bits ad 0 7, dsub := bits ad 7 4, arg := bits ad 11 7, sub := bits ad 18 4, data := pay.take (8 * (bits (field pay 0 2) 8 4 + 1)),
                      poison := decide (ag % 2 = 1) }
  | .credit => { m with dst := bits ad 0 7, sub := bits ad 7 4, dsub := bits ad 18 4, arg := ag }
  | .flush => { m with dst := bits ad 0 7, sub := bits ad 7 4, dsub := bits ad 18 4, arg := bits ad 11 7 }
  | .readData => { m with code := bits ad 0 8, events := bits ad 8 4, data := pay, poison := decide (ag % 2 = 1) }
  | .complete => { m with code := bits ad 0 8, events := bits ad 8 4 }
  | .nack => { m with code := ag }
  | .paceTime => { m with dst := 185, addr := field pay 0 1, len := field pay 1 1, arg := field pay 2 1, code := field pay 3 1 }
  | .rewrite => { m with dst := 184, arg := field pay 0 8 }
  | .keeper => { m with dst := 184, code := ag, data := pay }
  | .atomic => { m with len := field pay 0 2, code := ag + bits (field pay 2 1) 0 2 * 256, poison := (field pay 2 1).testBit 2, data := pay.drop 16 }
  | .ledgerAdd => { m with len := field pay 0 2, code := ag + bits (field pay 2 1) 0 2 * 256, poison := (field pay 2 1).testBit 2, data := pay.drop 16 }
  | .ledgerSettle => { m with len := field pay 0 2, code := ag + bits (field pay 2 1) 0 2 * 256, data := pay.drop 16 }

/-! ### Partner violations (R632 to R634, R807) -/

/-- The codes of Table 13-7. -/
def Vi.typeBad : Nat := 1
def Vi.vcBad : Nat := 2
def Vi.slotBad : Nat := 3
def Vi.creditOver : Nat := 4
def Vi.creditRet : Nat := 5
def Vi.seqBad : Nat := 6
def Vi.ackBad : Nat := 7
def Vi.hdrBad : Nat := 8
def Vi.routeBad : Nat := 9
def Vi.flightBad : Nat := 10
def Vi.ctrlBad : Nat := 11

/-- An entry of the NACK log (Table 13-8). -/
def State.nackLog (s : State) (l reason seq slot : Nat) : State :=
  let j := s.rd .nackNext
  let s := s.setReg .nackLogLink 0 j l
  let s := s.setReg .nackLogReason 0 j reason
  let s := s.setReg .nackLogSeq 0 j seq
  let s := s.setReg .nackLogSlot 0 j slot
  let s := s.setReg .nackLogPartner 0 j (s.reg .linkPartner 0 l)
  let s := s.setReg .nackLogEpoch 0 j s.pow.epoch
  let s := s.setReg .nackLogValid 0 j 1
  s.wr .nackNext (j + 1)

/-- A link stops being UP, or gives up a retraining under R617: what it has not delivered waits for a HANDOVER (R637). -/
def State.leaveUp (s : State) (l st : Nat) : State :=
  let k := s.link l
  let was := decide (s.reg .linkState 0 l = 2) || k.fast
  let back := k.waiting.map (fun m => { m with link := 24 })
  let s := s.setLink l { k with downWait := k.downWait || was, waiting := [], training := false, fast := false, replayOn := false }
  ({ s with net := back ++ s.net }).setReg .linkState 0 l st

/-- The link enters QUARANTINED (R634, R635): QUAR is set and a PARTNER record is written (R807). -/
def State.quarantine (s : State) (l code : Nat) : State :=
  let s := (s.leaveUp l 3).setReg .linkQuar 0 l 1
  s.errRecord { cls := 4, source := 3, unit := l, code := code, action := 5, detail := s.reg .linkPartner 0 l }

/-- The times of the last 1 ms before `t`. -/
def recentOf (l : List Nat) (t : Nat) : List Nat := l.filter (fun x => decide (t < x + 1000000))

/-- A violation on link `l` at its present time (R632 to R634): counted, logged, answered where `reply` says so, recorded when it is the first in
1 ms, and the seventeenth in 1 ms quarantines. -/
def State.violation (s : State) (l code seq slot : Nat) (reply : Bool) : State :=
  let k := s.link l
  let t := k.now
  let times := recentOf k.violT t ++ [t]
  let first := match k.recordT with
    | some r => decide (r + 1000000 ≤ t)
    | none => true
  let s := s.setLink l { k with violT := times, recordT := if first then some t else k.recordT }
  let s := s.bump .linkViolTotal 0 l 1
  let s := s.setReg .linkViolRecent 0 l (min times.length 255)
  let s := s.setReg .linkViolLast 0 l code
  let s := s.nackLog l code seq slot
  let s := if reply then s.emit (.linkCtrl l ⟨2, BitVec.ofNat 16 seq, BitVec.ofNat 8 code, BitVec.ofNat 8 l, BitVec.ofNat 8 slot⟩) else s
  let s := if first then s.errRecord { cls := 4, source := 3, unit := l, code := code, addr := seq, detail := s.reg .linkPartner 0 l } else s
  if 16 < times.length ∧ s.reg .linkState 0 l ≠ 3 then s.quarantine l code else s

end Sys2Proof.Machine
end

