-- ==== Sys2Proof/Machine/Queue.lean ====
section
/-! DEFINITION. Stage queues (09_flights_queues_and_mapping.md): descriptors, send entries, credits, items, flush and lending. -/

namespace Sys2Proof.Machine

/-! ### Rings -/

/-- Byte offset of cell `i` of queue `q`, counted round the ring (R432). -/
def State.cellAt (s : State) (u q i : Nat) : Nat := 64 * (s.reg .qdBase u q + i % max 1 (s.reg .qdCells u q))

/-- The published items of a queue, oldest first, and the cells they hold. -/
def Core.itemsOf (c : Core) (q : Nat) : List QItem := c.items.filter (fun x => decide (x.q = q))
def Core.usedCells (c : Core) (q : Nat) : Nat := sumOf (c.itemsOf q) (fun x => x.cells)

/-- DEPTH counts the published items. -/
def State.setDepth (s : State) (u q : Nat) : State := s.setReg .qdDepth u q ((s.core u).itemsOf q).length

/-- Cells of an item of `n` words (R432). -/
def cellsOf (n : Nat) : Nat := ceilDiv n 8

/-- Word 0 of an item with MARK and LEN written in bits [11:0] (R428). -/
def markItem (data : Bytes) : Bytes :=
  toBytes 2 (putBits (field data 0 2) 0 12 (0xB9 + (data.length / 8 - 1) % 16 * 256)) ++ data.drop 2

/-- A core that answers requests: not fenced, not in C2 or C3, and awake (R50, R51). -/
def State.answers (s : State) (u : Nat) : Bool := decide (u ≤ 128) && !(s.islandOff u) && decide ((s.core u).cstate = 0)

/-- BASE and CELLS of a queue after a write of `b` and `c` over `ob` and `oc`, and whether one was no legal value (Table 09-5, R10): CELLS
from `lo` to 4,096, and a ring that ends inside the scratchpad. A field with no legal value stays as it is. -/
def ringTake (lo ob oc b c : Nat) : Nat × Nat × Bool :=
  let cOk := decide (lo ≤ c) && decide (c ≤ 4096)
  let c1 := if cOk then c else oc
  if b + c1 ≤ 12288 then (b, c1, !cOk) else (ob, oc, true)

/-! ### Send entries -/

/-- The members of the group that a DEAL entry names: chip, core, queue, WEIGHT, valid. -/
def State.qgMember (s : State) (u g m : Nat) : Nat × Nat × Nat × Nat × Bool :=
  let w := s.reg .qgMember u (8 * g + m)
  (bits w 0 8, bits w 8 7, bits w 15 4, bits w 19 3 + 1, w.testBit 22)

/-- Writing QUOTA sets CREDITS, for every member of a DEAL entry too (R436, R457). -/
def State.setQuota (s : State) (u n v : Nat) : State :=
  let s := (s.setReg .qsQuota u n v).setReg .qsCredits u n v
  let c := s.core u
  s.setCore u { c with dealCr := (List.range 8).foldl (fun t m => tabSet 0 (8 * n + m) v t) c.dealCr }

/-- The credits of an entry's target. -/
def State.credits (s : State) (u n m : Nat) : Nat :=
  if s.reg .qsMode u n = 0 then s.reg .qsCredits u n else tabGet 0 (8 * n + m) (s.core u).dealCr
def State.setCredits (s : State) (u n m v : Nat) : State :=
  if s.reg .qsMode u n = 0 then s.setReg .qsCredits u n v
  else let c := s.core u
       s.setCore u { c with dealCr := tabSet 0 (8 * n + m) v c.dealCr }

/-- Deals an item of `c` cells (R456 to R458): from the rotation position on, the first valid member whose credits cover it, members without
cover being passed over with their counts reset. Answers the member and the new rotation. -/
def State.dealPick (s : State) (u n g c : Nat) : Nat → Nat → Nat → Option (Nat × Nat)
  | 0, _, _ => none
  | fuel + 1, m, cnt =>
    let x := s.qgMember u g m
    if x.2.2.2.2 ∧ cnt < x.2.2.2.1 ∧ c ≤ s.credits u n m then
      some (m, if cnt + 1 = x.2.2.2.1 then (m + 1) % 8 * 16 else m * 16 + (cnt + 1))
    else s.dealPick u n g c fuel ((m + 1) % 8) 0

/-- The target that accepts an item of `c` cells now: member, chip, core, queue, and the rotation after it (R436, R457). -/
def State.pushTarget (s : State) (u n c : Nat) : Option (Nat × Nat × Nat × Nat × Nat) :=
  let pos := tabGet 0 n (s.core u).dealPos
  if s.reg .qsMode u n = 0 then
    if c ≤ s.reg .qsCredits u n then some (0, s.reg .qsTchip u n, s.reg .qsTcore u n, s.reg .qsTq u n, pos) else none
  else
    let g := s.reg .qsTq u n % 4
    match s.dealPick u n g c 9 (pos / 16) (pos % 16) with
    | some (m, p) => let x := s.qgMember u g m
                     some (m, x.1, x.2.1, x.2.2.1, p)
    | none => none

/-- The member of an entry's group that targets a queue; 0 in DIRECT mode. -/
def State.memberFor (s : State) (u n chip core q : Nat) : Option Nat :=
  if s.reg .qsMode u n = 0 then some 0
  else (List.range 8).find? (fun m => let x := s.qgMember u (s.reg .qsTq u n % 4) m
                                      x.2.2.2.2 && decide (x.1 = chip) && decide (x.2.1 = core) && decide (x.2.2.1 = q))

/-- The tag of an item, from which its producer is found if it is returned: core, send entry, member, cells. -/
def itemTag (u n m cells : Nat) : Nat := 0x8000 + n % 16 + 16 * (m % 8) + 128 * ((cells - 1) % 2) + 256 * (u % 128)

/-- An item sent to its queue (R441): it carries the producer's chip, core, entry and flight, and the GEN that the entry last learned. -/
def State.sendItem (s : State) (u n m chip core q flight : Nat) (data : Bytes) (poison : Bool) : State :=
  let gen := tabGet 0 (8 * n + m) (s.core u).sendGen
  s.send { op := .item, srcChip := s.chip, src := u, sub := n, dstChip := chip, dst := core, dsub := q, part := s.corePart u,
           flight := flight, arg := gen, data := markItem data, poison := poison,
           tag := itemTag u n m (cellsOf (data.length / 8)), addr := core }

/-! ### QPUSH -/

/-- Fields of QPUSH and QPOP (Table 08-7). -/
def State.qHandle (s : State) (u w : Nat) : Nat := s.sreg u (fRa w)
def State.qOff (s : State) (u w : Nat) : Nat := s.idx u (bits w 24 20) (fRb w)
def qWords (w : Nat) : Nat := bits w 44 4 + 1
def qTry (w : Nat) : Bool := w.testBit 48
def hIndex (h : Nat) : Nat := h % 16
def hKind (h : Nat) : Nat := bits h 4 1

/-- The issue checks of R360 and R434. -/
def State.pushBad (s : State) (u w : Nat) : Nat :=
  let h := s.qHandle u w
  firstBad (offChecks (s.qOff u w) 8 ++ [(decide (h / 32 ≠ 0) || decide (hKind h = 0) || decide (s.reg .qsEn u (hIndex h) = 0), St.queueBad)])
def State.queueBad (s : State) (u h : Nat) : Bool := decide (h / 32 ≠ 0) || decide (hKind h = 1) || decide (s.reg .qdEn u (hIndex h) = 0)

/-- The words of [a, a + n) as the queue engine reads them, and the status of the read: words past the scratchpad read 0 with SPD_RANGE
(R320). -/
def State.qRead (s : State) (u a n : Nat) : Bytes × Nat :=
  let inside := min n (spdBytes - a)
  let st := s.spdStatus u a inside
  (s.spdReads u a inside ++ List.replicate (n - inside) 0, if st ≠ 0 then st else if inside < n then St.spdRange else 0)

/-- In DEAL mode a full push has passed over every member, so that the member at the rotation position keeps no weight count (R457, R458). -/
def State.passOver (s : State) (u : Nat) : State :=
  let n := hIndex (s.qHandle u (s.iw u))
  if s.reg .qsMode u n = 0 then s
  else
    let c := s.core u
    s.setCore u { c with dealPos := tabSet 0 n (tabGet 0 n c.dealPos / 16 * 16) c.dealPos }

/-- A QPUSH completes (R443): under TRY = 1 it writes `res`; its status is raised. -/
def State.pushEnd (s : State) (u res status : Nat) : State :=
  let w := s.iw u
  let pc := s.pc u
  let s := (s.setCore u { s.core u with hold := .none }).issued u false 0
  let s := if qTry w then s.setSreg u (fRd w) res else s
  let s := s.traceEv u 5 (s.qHandle u w) 0
  (s.next u).raise u status pc

/-- Tries to have a QPUSH accepted: none when its credits are short. A 1-cell item is read, charged and sent; of a 2-cell item the first cell
is read and the credits are charged. `ecc` lists the errors that the read met. The rows of the item stand in the scoreboard (R395). -/
def State.tryPush (s : State) (u : Nat) (ecc : List EccErr) : Option State :=
  let w := s.iw u
  let n := hIndex (s.qHandle u w)
  let words := qWords w
  let off := s.qOff u w
  match s.pushTarget u n (cellsOf words) with
  | none => none
  | some (m, chip, core, q, pos) =>
    let s := s.setCredits u n m (s.credits u n m - cellsOf words)
    let s := s.setCore u { s.core u with dealPos := tabSet 0 n pos (s.core u).dealPos }
    let id := (s.core u).nextId
    let s := (s.record u [rowsOf off (8 * words)] [] false).eccErrs u (eccAt off (8 * min words 8) ecc)
    let r := s.qRead u off (8 * min words 8)
    let s := (s.noteOff u off (8 * min words 8)).pmc u 0xE 1
    if words ≤ 8 then
      some ((s.sendItem u n m chip core q (s.reg .qsFlight u n) r.1 (s.spdAnyPoison u off (8 * words))).pushEnd u 1 r.2)
    else some (s.setCore u { s.core u with hold := .pushMid id m chip core q r.1 r.2 })

/-- The second cell of an item is read, and the item is sent (R441, R477). -/
def State.pushSecond (s : State) (u m chip core q : Nat) (cell : Bytes) (st : Nat) (ecc : List EccErr) : State :=
  let w := s.iw u
  let n := hIndex (s.qHandle u w)
  let off := s.qOff u w
  let s := s.eccErrs u (eccAt (off + 64) (8 * qWords w - 64) ecc)
  let r := s.qRead u (off + 64) (8 * qWords w - 64)
  let psn := s.spdAnyPoison u off (8 * qWords w)
  let s := (s.noteOff u (off + 64) (8 * qWords w - 64)).pmc u 0xE 1
  (s.sendItem u n m chip core q (s.reg .qsFlight u n) (cell ++ r.1) psn).pushEnd u 1 (if st = 0 then r.2 else st)

/-- QPUSH (R392, R395, R434 to R443): accepted when its credits cover the item; else it waits, or under TRY = 1 writes 0. One that has been
accepted sends its item although its task is being stopped or halted (R416, R466, R810). `dt.errs` lists the errors that its read met. -/
def execQpush (u : CoreId) (dt : Met Nat EccErr) (s : State) : Host.Outcome State Fault Refusal :=
  match (s.core u).hold with
  | .pushMid id m chip core q cell st =>
    if s.runs u && s.canFinish u then
      fin (((s.tick u dt.arg).underIssue u id (fun s => s.pushSecond u m chip core q cell st dt.errs)).tryEnd u)
    else stay s
  | .none =>
    if !(s.canIssue u 0x90) then stay s
    else
      let w := s.iw u
      let c := s.core u
      if decide (64 ≤ c.sb.length) || c.conflict [rowsOf (s.qOff u w) (8 * qWords w)] [] then stay s
      else if s.pushBad u w ≠ 0 then fin ((s.tick u dt.arg).reject u (s.pushBad u w))
      else
        let s := s.tick u dt.arg
        match s.tryPush u dt.errs with
        | some s' => fin s'
        | none =>
          let s := s.passOver u
          if qTry w then fin (s.pushEnd u 0 0) else fin (s.setCore u { s.core u with hold := .push })
  | _ => stay s

/-- QPUSH_RETRY (R454): a waiting QPUSH is accepted once its credits cover the item. -/
def execQpushRetry (u : Met CoreId EccErr) (s : State) : Host.Outcome State Fault Refusal :=
  if (s.core u.arg).hold = .push ∧ s.canIssue u.arg 0x90 then
    match s.tryPush u.arg u.errs with
    | some s' => fin s'
    | none => stay (s.passOver u.arg)
  else stay s

/-! ### Credits and items -/

/-- Credits go back to the send entry that pushed an item (R437). -/
def State.returnCredit (s : State) (u q chip core entry cells : Nat) : State :=
  s.send { op := .credit, srcChip := s.chip, src := u, sub := q, dstChip := chip, dst := core, dsub := entry, part := s.corePart u,
           arg := cells, addr := core, tag := entry }

/-- CREDIT (R438): at a core's send entry, or at a host send entry of function m.dsub div 16. -/
def State.creditArrive (s : State) (m : Msg) : State :=
  if m.dst = 184 then
    s.setReg .hqsCredits (m.dsub / 16) (m.dsub % 16) (s.reg .hqsCredits (m.dsub / 16) (m.dsub % 16) + m.arg)
  else match s.memberFor m.dst m.dsub m.srcChip m.src m.sub with
    | some k => s.setCredits m.dst m.dsub k (s.credits m.dst m.dsub k + m.arg)
    | none => s

/-- CREDIT (R438). -/
def execCredit (k : Nat) (s : State) : Host.Outcome State Fault Refusal :=
  match s.arrival .credit k with
  | some m => fin ((s.take k).creditArrive m)
  | none => stay s

/-- An item carries a GEN older than the queue's (R452), in 7 bits. -/
def genOlder (gen cur : Nat) : Bool := decide (gen ≠ cur) && decide ((cur + 128 - gen) % 128 < 64)

/-- A drop counted in DROPPED, its credits returned at once where `back` says so (R440, R446, R452). -/
def State.dropItem (s : State) (m : Msg) (back : Bool) : State :=
  let s := s.bump .qdDropped m.dst m.dsub 1
  if back then s.returnCredit m.dst m.dsub m.srcChip m.src m.sub (cellsOf (m.data.length / 8)) else s

/-- A violation of R446: of the link it arrived over (R808), else in the global status. -/
def State.flightViolation (s : State) (m : Msg) : State :=
  if m.link < 24 then s.violation m.link Vi.flightBad 0 0 true
  else s.coreEvent m.dst Gs.streamDrop 0x11 m.dsub 18

/-- Writes an item's words at the tail and publishes it (R444). -/
def State.publish (s : State) (m : Msg) : State :=
  let u := m.dst
  let q := m.dsub
  let words := m.data.length / 8
  let tail := s.reg .qdTail u q
  let s := (s.spdWrite u (s.cellAt u q tail) (m.data.take 64) m.poison).pmc u 0xE 1
  let s := if words ≤ 8 then s else (s.spdWrite u (s.cellAt u q (tail + 1)) (m.data.drop 64) m.poison).pmc u 0xE 1
  let s := s.setReg .qdTail u q ((tail + cellsOf words) % max 1 (s.reg .qdCells u q))
  let c := s.core u
  let s := s.setCore u { c with items := c.items ++ [⟨q, words, cellsOf words, decide (m.src = 184), m.srcChip, m.src, m.sub⟩],
                                resync := setDel q c.resync }
  s.setDepth u q

/-- A producer has pushed to a queue since its previous flush, whatever becomes of the item: it will be told of the next (R449). -/
def State.notePusher (s : State) (m : Msg) : State :=
  let c := s.core m.dst
  let x := (m.dsub, (m.srcChip * 256 + m.src) * 512 + m.sub)
  if c.pushers.contains x then s else s.setCore m.dst { c with pushers := c.pushers ++ [x] }

/-- An arriving or local item (R440, R444, R446, R452, R453, R480). -/
def State.itemArrive (s : State) (m : Msg) : State :=
  let s := s.notePusher m
  let u := m.dst
  let q := m.dsub
  let c := s.core u
  let need := cellsOf (m.data.length / 8)
  if s.reg .qdEn u q = 0 then s.dropItem m true
  else if m.flight ≠ s.reg .qdFlight u q then (s.dropItem m true).flightViolation m
  else if genOlder m.arg (s.reg .qdGen u q) then s.dropItem m false
  else if s.reg .qdCells u q < c.usedCells q + need then s.dropItem m true
  else if c.resync.contains q ∧ field m.data 0 1 ≠ 0xB9 then s
  else s.publish m

/-- ITEM (R444): message `k` reaches its core. -/
def execItem (k : Nat) (s : State) : Host.Outcome State Fault Refusal :=
  match s.arrival .item k with
  | some m =>
    if !(s.answers m.dst) then stay s
    else if m.srcChip ≠ s.chip ∧ (s.partOf m.dst).any (fun p => decide (s.reg .partState 0 p = 2)) then
      fin ((s.take k).downNack m ((s.partOf m.dst).getD 0))
    else fin ((s.take k).itemArrive m)
  | none => stay s

/-! ### QPOP -/

/-- QLAST records a barge popped from queue `q` of core `v`, an item of 8 words (Table 09-5, R468). -/
def State.noteLast (s : State) (u v q : Nat) (data : Bytes) (poison : Bool) : State :=
  if data.length = 64 then
    (s.setCore u { s.core u with barge := some ⟨v, q, data, poison⟩ }).setReg .coreQlast u 0 (field data 4 4 + bits (field data 2 2) 0 12 * 2 ^ 32 + q * 2 ^ 44)
  else s

/-- A QPOP completes, writing `res` where it is given. -/
def State.popEnd (s : State) (u : Nat) (res : Option Nat) (status seq : Nat) : State :=
  let w := s.iw u
  let pc := s.pc u
  let h := s.qHandle u w
  let s := (s.setCore u { s.core u with hold := .none }).issued u false 0
  let s := match res with
    | some v => s.setSreg u (fRd w) v
    | none => s
  let s := s.traceEv u 6 h seq
  (s.next u).raise u status pc

/-- Pops the head item of queue `q` of core `v` for core `u` (R393, R394, R448, R460): its words go to OFF onward, its cells return as credits,
and an item taken by lending is marked LENT, also from another queue of the same core. `ecc` lists the errors that its reads in core `v` met.
The rows it writes stand in the scoreboard (R395). -/
def State.popFrom (s : State) (u v q : Nat) (lent : Bool) (ecc : List EccErr) : State :=
  let w := s.iw u
  match (s.core v).itemsOf q with
  | [] => s
  | it :: _ =>
    if qWords w < it.words then s.popEnd u none St.qSize 0
    else
      let head := s.reg .qdHead v q
      let a0 := s.cellAt v q head
      let a1 := s.cellAt v q (head + 1)
      let n0 := 8 * min it.words 8
      let n1 := 8 * it.words - n0
      let s := s.eccErrs v (eccAt a0 n0 ecc ++ eccAt a1 n1 ecc)
      let raw := s.spdReads v a0 n0 ++ s.spdReads v a1 n1
      let data := if !lent then raw else toBytes 2 (putBits (field raw 0 2) 14 1 1) ++ raw.drop 2
      let st := if s.spdStatus v a0 n0 ≠ 0 then s.spdStatus v a0 n0 else s.spdStatus v a1 n1
      let psn := (List.range it.words).map (fun i => s.spdPoison v (if i < 8 then a0 + 8 * i else a1 + 8 * (i - 8)))
      let off := s.qOff u w
      let s := ((s.noteOff v a0 n0).noteOff v a1 n1).record u [] [rowsOf off (8 * it.words)] false
      let inside := min (8 * it.words) (spdBytes - off)
      let st := if st ≠ 0 then st else if s.spdAnyOff u off inside then St.spdOff else if inside < 8 * it.words then St.spdRange else 0
      let s := (List.range (inside / 8)).foldl (fun s i => s.spdWrite u (off + 8 * i) (sliceBytes data (8 * i) 8) (nth psn i false)) s
      let s := s.pmc u 0xE (2 * it.cells)
      let c := s.core v
      let i := c.items.findIdx (fun x => decide (x.q = q))
      let s := s.setCore v { c with items := c.items.eraseIdx i }
      let s := s.setReg .qdHead v q ((head + it.cells) % max 1 (s.reg .qdCells v q))
      let s := (s.setDepth v q).returnCredit v q it.chip it.core it.entry it.cells
      let s := s.noteLast u v q data (psn.any id)
      s.popEnd u (some it.words) st (field data 4 4 + bits (field data 2 2) 0 12 * 2 ^ 32)

/-- The lend queue that an empty queue may pop (R460): its core and number, where its depth exceeds LEND_MIN. The manual gives a lent pop no
error: a lend core whose island is off counts as one with nothing to lend (DESIGN CHOICE, log 95). -/
def State.lendFrom (s : State) (u q : Nat) : Option (Nat × Nat) :=
  let v := s.reg .qdLendCore u q
  let r := s.reg .qdLendQ u q
  if s.reg .qdLendEn u q = 1 ∧ s.answers v ∧ s.reg .qdEn v r = 1 ∧ s.reg .qdLendMin u q < ((s.core v).itemsOf r).length then some (v, r) else none

/-- The queue is empty and its lend core is in C1: the crossing holds the lent pop until that core's clock runs (R50), which ISLAND_WAKE starts. -/
def State.lendAsleep (s : State) (u q : Nat) : Bool :=
  let v := s.reg .qdLendCore u q
  ((s.core u).itemsOf q).isEmpty && decide (s.reg .qdLendEn u q = 1) && !(s.islandOff v) && decide ((s.core v).cstate = 1)

/-- Pops the core's own queue, or by lending; none when there is nothing to take. -/
def State.tryPop (s : State) (u q : Nat) (ecc : List EccErr) : Option State :=
  if !((s.core u).itemsOf q).isEmpty then some (s.popFrom u u q false ecc)
  else match s.lendFrom u q with
    | some (v, r) => some (s.popFrom u v r true ecc)
    | none => none

/-- QPOP (R393 to R395, R448, R460). `dt.errs` lists the errors that its reads met. -/
def execQpop (u : CoreId) (dt : Met Nat EccErr) (s : State) : Host.Outcome State Fault Refusal :=
  if !(s.canIssue u 0x91) then stay s
  else
    let w := s.iw u
    let h := s.qHandle u w
    match (s.core u).hold with
    | .none =>
      let c := s.core u
      if decide (64 ≤ c.sb.length) || c.conflict [] [rowsOf (s.qOff u w) (8 * qWords w)] then stay s
      else
        let bad := firstBad (offChecks (s.qOff u w) 8 ++ [(s.queueBad u h, St.queueBad)])
        if bad ≠ 0 then fin ((s.tick u dt.arg).reject u bad)
        else if s.lendAsleep u (hIndex h) then stay s
        else
          let s := s.tick u dt.arg
          match s.tryPop u (hIndex h) dt.errs with
          | some s' => fin s'
          | none => if qTry w then fin (s.popEnd u (some 0) 0 0) else fin (s.setCore u { s.core u with hold := .pop })
    | _ => stay s

/-- QPOP_LEND_RETEST (R462): a waiting QPOP tests its queue and its lend queue again. -/
def execQpopLendRetest (u : Met CoreId EccErr) (s : State) : Host.Outcome State Fault Refusal :=
  if (s.core u.arg).hold = .pop ∧ s.canIssue u.arg 0x91 then
    match s.tryPop u.arg (hIndex (s.qHandle u.arg (s.iw u.arg))) u.errs with
    | some s' => fin s'
    | none => stay s
  else stay s

/-! ### Flush and status -/

/-- A flush (R449, R453): the items go, HEAD becomes TAIL, GEN advances, and every producer since the previous flush is told. -/
def State.flushQueue (s : State) (u q : Nat) : State :=
  let c := s.core u
  let told := c.pushers.filter (fun x => decide (x.1 = q))
  let gen := (s.reg .qdGen u q + 1) % 128
  let s := s.setCore u { c with items := c.items.filter (fun x => decide (x.q ≠ q)), pushers := c.pushers.filter (fun x => decide (x.1 ≠ q)),
                                resync := setAdd q c.resync }
  let s := ((s.setReg .qdHead u q (s.reg .qdTail u q)).setReg .qdGen u q gen).setDepth u q
  told.foldl (fun s x => s.send
    { op := .flush, srcChip := s.chip, src := u, sub := q, dstChip := x.2 / 131072, dst := x.2 / 512 % 256, dsub := x.2 % 512,
      part := s.corePart u, arg := gen, addr := x.2 / 512 % 256, tag := x.2 % 512 }) s

/-- QFLUSH (R398, R449). -/
def execQflush (u : CoreId) (dt : Nat) (s : State) : Host.Outcome State Fault Refusal :=
  if !(s.canIssue u 0x92) then stay s
  else
    let h := s.qHandle u (s.iw u)
    if s.queueBad u h then fin ((s.tick u dt).reject u St.queueBad)
    else fin ((s.flushQueue u (hIndex h)).plainDone u dt)

/-- The status word of R472. -/
def State.qstat (s : State) (u q : Nat) : Nat :=
  let c := s.core u
  let d := (c.itemsOf q).length
  d + (s.reg .qdCells u q - c.usedCells q) * 2 ^ 13 + s.reg .qdGen u q * 2 ^ 26 + b2n (d = 0) * 2 ^ 33 + s.reg .qdLendEn u q * 2 ^ 34
    + s.reg .qdDropped u q * 2 ^ 48

/-- QSTAT (R398, R472). -/
def execQstat (u : CoreId) (dt : Nat) (s : State) : Host.Outcome State Fault Refusal :=
  if !(s.canIssue u 0x93) then stay s
  else
    let w := s.iw u
    let h := s.qHandle u w
    if s.queueBad u h then fin ((s.tick u dt).reject u St.queueBad)
    else fin (s.scalarDone u dt (fRd w) (s.qstat u (hIndex h)))

/-- A flush notice at a send entry (R450, R451): CREDITS becomes QUOTA; an item part-way through its read is torn. -/
def State.flushArrive (s : State) (m : Msg) : State :=
  if m.dst = 184 then
    let f := m.dsub / 16
    let e := m.dsub % 16
    let s := { s with host := { s.host with gens := tabSet 0 (16 * f + e) m.arg s.host.gens } }
    s.setReg .hqsCredits f e (s.reg .hqsQuota f e)
  else
    let u := m.dst
    match s.memberFor u m.dsub m.srcChip m.src m.sub with
    | none => s
    | some k =>
      let s := s.setCredits u m.dsub k (s.reg .qsQuota u m.dsub)
      let s := s.setCore u { s.core u with sendGen := tabSet 0 (8 * m.dsub + k) m.arg (s.core u).sendGen }
      match (s.core u).hold with
      | .pushMid _ _ chip core q _ _ =>
        if hIndex (s.qHandle u (s.iw u)) = m.dsub ∧ chip = m.srcChip ∧ core = m.src ∧ q = m.sub then
          ((s.bump .qsTorn u m.dsub 1).pushEnd u 0 St.qTorn).tryEnd u
        else s
      | _ => s

/-- FLUSH (R450). -/
def execFlush (k : Nat) (s : State) : Host.Outcome State Fault Refusal :=
  match s.arrival .flush k with
  | some m => fin ((s.take k).flushArrive m)
  | none => stay s

/-- An ITEM that could not be delivered (Table 13-6): its credits return at the producer that its tag names, and the lack of a route or of a
matching flight is recorded in the global status. -/
def State.itemNack (s : State) (m : Msg) : State :=
  let u := bits m.tag 8 7
  let n := bits m.tag 0 4
  let k := bits m.tag 4 3
  let s := s.setCredits u n k (s.credits u n k + bits m.tag 7 1 + 1)
  if m.code ≤ 2 then s.coreEvent u Gs.streamDrop 0x11 n 18 else s

/-- The status that a NACK gives the source's operation (Table 13-6): `mem` for a memory access, else a sluice operation. -/
def nackStatus (mem : Bool) (reason : Nat) : Nat :=
  match reason with
  | 1 => if mem then St.memNochip else St.noRoute
  | 2 => if mem then St.dmaXlate else St.slcRemote
  | 3 => St.partDown
  | 4 => St.linkLost
  | _ => St.dmaXlate

/-- An RSP NACK at its source (R631): the operation named by its tag completes with the status that its reason gives. -/
def State.nackArrive (s : State) (m : Msg) : State :=
  let u := m.dst
  if 0x8000 ≤ m.tag then s.itemNack m
  else if u = 184 then s.sluiceDone m.tag (nackStatus false m.code) 0
  else if 128 < u then s
  else
    let c := s.core u
    if (c.xferOf m.tag).isSome then s.dmaAnswer u m.tag (nackStatus true m.code) [] false 0
    else if c.hold = .test m.tag then s.testDone u (nackStatus false m.code) 0
    else if c.posted.any (fun p => decide (p.tag = m.tag)) then s.postedDone u m.tag (nackStatus false m.code)
    else if c.waits.any (fun w => decide (w.wid = m.tag)) then s.waitDone u m.tag (nackStatus false m.code)
    else s

/-- NACK (R631): message `k` names its reason in `code`. -/
def execNack (k : Nat) (s : State) : Host.Outcome State Fault Refusal :=
  match s.arrival .nack k with
  | some m => fin (((s.take k).kbTake m (nackStatus (((s.core m.dst).xferOf m.tag).isSome) m.code)).nackArrive m)
  | none => stay s

/-- WAKE (R576): a wake reaches its core, or completes the WAIT of a SLUICE_OP packet (R722). -/
def execWake (k : Nat) (s : State) : Host.Outcome State Fault Refusal :=
  match s.arrival .wake k with
  | some m =>
    if m.dst ≤ 128 then fin (((s.take k).kbTake m m.code).wakeCore m)
    else
      let s := s.take k
      let s := { s with waiters := s.waiters.filter (fun w => !(w.taken && decide (w.chip = s.chip) && decide (w.core = 184) && decide (w.wid = m.dsub))) }
      fin (s.sluiceDone m.dsub m.code 0)
  | none => stay s

/-- The waiter record of a SLUICE_OP packet whose bank was full goes to the bank again (R575, R722). -/
def State.resendWaiter (s : State) (m : Msg) : State :=
  match s.sluicePkt m.tag with
  | none => s
  | some p =>
    s.send { op := .waiter, srcChip := s.chip, src := 184, sub := m.tag, dstChip := m.srcChip, dst := bankIsland (p.get 0x11 2 % 16384), part := p.part,
             flight := s.flightOf p.part, tag := m.tag, addr := p.get 0x11 2 % 16384, arg := p.get 0x18 8 % 2 ^ 48,
             len := b2n ((p.get 0x10 1).testBit 7) }

/-- SLUICE_ACK (R575, R578, R722): an acknowledgement, answer or refusal reaches the core or the packet that it is for. -/
def execSluiceAck (k : Nat) (s : State) : Host.Outcome State Fault Refusal :=
  match s.arrival .slcAck k with
  | some m =>
    if m.dst ≤ 128 then fin (((s.take k).kbTake m (if m.code = waitRefused then 0 else m.code)).ackCore m)
    else if m.code = waitRefused then fin (((s.take k).wr .slcPoll 1).resendWaiter m)
    else fin ((s.take k).sluiceDone m.tag m.code m.arg)
  | none => stay s

end Sys2Proof.Machine
end

