-- ==== Sys2Proof/Machine/Link.lean ====
section
/-! DEFINITION. Kolnal links (13_kolnal_links.md): training, flits, credits, replay, handover, routing, and the Keeper's MGMT messages. -/

namespace Sys2Proof.Machine

/-! ### Training -/

/-- Slots allotted to a channel and lane (Table 13-5). -/
def allot (j : Nat) : Nat := if j % 2 = 1 then 16 else nth [224, 224, 72, 128, 208, 72] (j / 2) 0

/-- The link is held down: HOLD, or a hypercube dimension that the system does not have (R38, R605). -/
def State.linkHeld (s : State) (l : Nat) : Bool :=
  decide (s.reg .linkHold 0 l = 1) || (decide (14 ≤ l) && decide (s.rd .klkTrayLog2 ≤ (l - 14) / 2))

/-- The peer of Table 01-5. -/
def State.linkPeer (s : State) (l : Nat) : Nat := if l < 14 then s.chip ^^^ (l / 2 + 1) else s.chip ^^^ (8 * 2 ^ ((l - 14) / 2))

/-- The other link of the pair. -/
def pairOf (l : Nat) : Nat := l ^^^ 1

/-- A link begins training from step 1 of Table 13-2: it trains when LOCKED is 1 (R42) and it is not held; otherwise it is HELD or waits. -/
def State.trainStart (s : State) (l : Nat) : State :=
  let s := s.setLink l { s.link l with retryWait := false, fast := false }
  if s.linkHeld l then s.setReg .linkState 0 l 4
  else if s.rd .klkLocked = 0 then s.setReg .linkState 0 l 0
  else (s.setLink l { s.link l with training := true }).setReg .linkState 0 l 1

/-- LINK_TRAINING_START (R601, R42, R38, R605): a link in DOWN or HELD that neither trains nor waits begins training, or is HELD. -/
def execLinkTrainingStart (l : LinkId) (s : State) : Host.Outcome State Fault Refusal :=
  let k := s.link l
  let st := s.reg .linkState 0 l
  if (st = 0 ∨ st = 4) ∧ s.rd .klkLocked = 1 ∧ ¬ k.retryWait then fin (s.trainStart l) else stay s

/-- A training attempt has ended: the first one counts for READY (R757). -/
def State.linkTried (s : State) (l : Nat) : State := { s with env := { s.env with linkTried := setAdd l s.env.linkTried } }

/-- A failed attempt (R604): it is repeated after 100 ms, and the third in a row makes the link FAILED, with a LINK record (Table 17-1). A link
that fails to retrain under R617 has left UP (R637). -/
def State.trainFail (s : State) (l : Nat) : State :=
  let k := s.link l
  let s := s.linkTried l
  let k := { k with training := false, fast := false, downWait := k.downWait || k.fast }
  if 2 ≤ k.attempts then
    let s := (s.setLink l { k with attempts := 0, retryWait := false }).setReg .linkState 0 l 5
    s.errRecord { cls := 3, source := 3, unit := l, action := 4 }
  else (s.setLink l { k with attempts := k.attempts + 1, retryWait := true }).setReg .linkState 0 l 0

/-- TRAINING_RETRY (R604): the failed attempt is repeated. -/
def execTrainingRetry (l : LinkId) (s : State) : Host.Outcome State Fault Refusal :=
  if (s.link l).retryWait then fin (s.trainStart l) else stay s

/-- A message's source expects an answer (R637, R638, R631): everything but answers, wakes, tree messages and cycle starts. -/
def Msg.answered (m : Msg) : Bool :=
  !(decide (m.op.vc = 1) || decide (m.op = .wake) || decide (m.op = .treeArrive) || decide (m.op = .treeRelease) || decide (m.op = .paceTime))

/-- A message that the fabric gives up: its source is told by an RSP NACK with `reason`; a lost tree message sets TREE_LOST (R590). -/
def State.giveUp (s : State) (m : Msg) (reason : Nat) : State :=
  if m.op = .treeArrive ∨ m.op = .treeRelease then s.treeGone m.addr
  else if m.answered then
    s.send { op := .nack, srcChip := s.chip, src := 180, dstChip := m.srcChip, dst := m.src, dsub := m.sub, part := m.part, flight := m.flight,
             tag := m.tag, seq := m.seq, addr := m.addr % 2 ^ 40, code := reason }
  else s

/-- The messages of the unacknowledged flits of a link are discarded (R638). -/
def State.dropUnacked (s : State) (l : Nat) : State :=
  let k := s.link l
  let ms := k.unacked.flatMap (fun x => x.2)
  let s := s.setLink l { k with unacked := [] }
  ms.foldl (fun s m => s.giveUp m 4) s

/-! ### Sending flits -/

/-- The header of a flit without its CRC (Table 13-3, R610, R620). -/
def State.flitHead (s : State) (l ty seq : Nat) : Bytes :=
  let k := s.link l
  toBytes 1 (ty + k.l1turn * 16 + s.reg .linkWidth 0 l * 128) ++ toBytes 1 (tabGet 0 (2 * k.l1turn + 1) k.freed) ++ toBytes 2 seq
    ++ toBytes 2 ((k.rxSeq + 4095) % 4096 + b2n k.rxAny * 32768)
    ++ (List.range 6).flatMap (fun v => toBytes 1 (tabGet 0 (2 * v) k.freed))

/-- Sends a DATA flit with these messages (R608, R610); the lane-1 report goes on to the next channel (R620). -/
def State.sendFlit (s : State) (l seq : Nat) (ms : List Msg) : State :=
  let h := s.flitHead l 1 seq
  let body := sliceBytes (ms.flatMap (fun m => m.toSlots m.lane)) 0 240
  let k := s.link l
  (s.setLink l { k with l1turn := (k.l1turn + 1) % 6 }).emit (.linkFlit l (h ++ toBytes 4 (crc32 (h ++ body)) ++ body))

/-- The channels and lanes in packing order (R621), as 2 × VC + lane. -/
def packOrder : List Nat := [3, 2, 5, 4, 11, 10, 9, 8, 7, 6, 1, 0]

/-- The partition of this chip that originated a message; 16 for none. -/
def State.linkOwner (s : State) (m : Msg) : Nat := if m.srcChip = s.chip then min m.part 16 else 16

/-- The slots of channel and lane `j` that partition `p` can always use (R733): RESV sixteenths of a lane-0 allotment. -/
def State.linkReserve (s : State) (j p : Nat) : Nat :=
  if 16 ≤ p ∨ s.reg .partState 0 p = 0 then 0
  else match j with
    | 0 => s.reg .partLinkqReq 0 p * allot 0 / 16
    | 4 => s.reg .partLinkqSluice 0 p * allot 4 / 16
    | 6 => s.reg .partLinkqLedger 0 p * allot 6 / 16
    | 8 => s.reg .partLinkqStream 0 p * allot 8 / 16
    | _ => 0

/-- The slots that `p` holds. -/
def usedBy (used : List (Nat × Nat)) (p : Nat) : Nat := sumOf (used.filter (fun x => decide (x.1 = p))) (fun x => x.2)

/-- The shared slots in use: those that partitions hold beyond their reserves, and every other message's. -/
def sharedUse (res : Nat → Nat) (used : List (Nat × Nat)) : Nat :=
  sumOf (List.range 16) (fun p => usedBy used p - res p) + usedBy used 16

/-- What packing of one channel and lane leaves: the messages packed and left, the slots of the flit, the credits, and who holds slots. -/
structure Packed where
  taken : List Msg
  left  : List Msg
  room  : Nat
  cr    : Nat
  used  : List (Nat × Nat)

/-- Packs waiting messages of channel and lane `j` in order, while slots and credits last (R611, R619). A partition's messages use its reserve first;
beyond it they share the slots that nobody reserves, in order of arrival (R733). `shut` lists the owners whose next message must wait; 17 in it
says that the shared slots are spoken for. -/
def packClass (own : Msg → Nat) (res : Nat → Nat) (pool j : Nat) : List Msg → Nat → Nat → List (Nat × Nat) → List Nat → Packed
  | [], room, cr, used, _ => ⟨[], [], room, cr, used⟩
  | m :: t, room, cr, used, shut =>
    let p := own m
    let u := used ++ [(p, m.slots)]
    if 2 * m.op.vc + m.lane ≠ j then
      let r := packClass own res pool j t room cr used shut
      { r with left := m :: r.left }
    else if room < m.slots ∨ cr < m.slots then ⟨[], m :: t, room, cr, used⟩
    else if !(shut.contains p) && (decide (p < 16 ∧ usedBy u p ≤ res p) || (!(shut.contains 17) && decide (sharedUse res u ≤ pool))) then
      let r := packClass own res pool j t (room - m.slots) (cr - m.slots) u shut
      { r with taken := m :: r.taken }
    else
      let r := packClass own res pool j t room cr used (p :: 17 :: shut)
      { r with left := m :: r.left }

/-- The slots of channel and lane `j` that no enabled partition reserves. -/
def State.linkPool (s : State) (j : Nat) : Nat := allot j - sumOf (List.range 16) (fun p => s.linkReserve j p)

/-- What packing a flit gives over all channels. -/
structure Flit where
  taken : List Msg
  left  : List Msg
  room  : Nat
  link  : Link

/-- Packs the next flit of a link, channel by channel (R621). -/
def State.packFlit (s : State) (k : Link) : Flit :=
  packOrder.foldl (fun (acc : Flit) j =>
    let p := packClass s.linkOwner (s.linkReserve j) (s.linkPool j) j acc.left acc.room (tabGet 0 j acc.link.credits) (tabGet [] j acc.link.used) []
    { taken := acc.taken ++ p.taken, left := p.left, room := p.room,
      link := { acc.link with credits := tabSet 0 j p.cr acc.link.credits, used := tabSet [] j p.used acc.link.used } }) ⟨[], k.waiting, 15, k⟩

/-- Sends flits on a link that is UP, while messages and credits last and fewer than 512 flits are unacknowledged (R612, R619, R621); `n` bounds
the flits. -/
def State.transmit (s : State) (l : Nat) : Nat → State
  | 0 => s
  | n + 1 =>
    let k := s.link l
    if s.reg .linkState 0 l ≠ 2 ∨ 512 ≤ k.unacked.length then s
    else
      let r := s.packFlit k
      if r.taken.isEmpty then s
      else
        let s := s.setLink l { r.link with waiting := r.left, unacked := k.unacked ++ [(k.txSeq, r.taken)], txSeq := (k.txSeq + 1) % 4096 }
        (s.sendFlit l k.txSeq r.taken).transmit l n

/-- Sends what waits. -/
def State.pump (s : State) (l : Nat) : State := s.transmit l ((s.link l).waiting.length)

/-- Resends flits in order (R615). -/
def State.resend (s : State) (l : Nat) (fs : List (Nat × List Msg)) : State := fs.foldl (fun s f => s.sendFlit l f.1 f.2) s

/-- How far SEQ `a` lies ahead of `b`, mod 4,096. -/
def seqAhead (a b : Nat) : Nat := (a + 4096 - b % 4096) % 4096

/-- Credits at the start (Table 13-2 step 5), less the slots of flits still to be sent again. -/
def startCredits (fs : List (Nat × List Msg)) : List (Nat × Nat) :=
  (List.range 12).foldl (fun t j => tabSet 0 j
    (allot j - sumOf (fs.flatMap (fun f => f.2)) (fun m => if 2 * m.op.vc + m.lane = j then m.slots else 0)) t) []

/-- Who holds the slots of flits still to be sent again. -/
def State.startUsed (s : State) (fs : List (Nat × List Msg)) : List (Nat × List (Nat × Nat)) :=
  (List.range 12).foldl (fun t j => tabSet [] j
    (((fs.flatMap (fun f => f.2)).filter (fun m => decide (2 * m.op.vc + m.lane = j))).map (fun m => (s.linkOwner m, m.slots))) t) []

/-- The link comes UP at a width (Table 13-2 step 5). A fast retrain keeps the replay buffer and resumes from the partner's ACK (R617); training from
step 1 begins the sequence anew, and what was still unacknowledged is lost (R638). -/
def State.linkUpNow (s : State) (l width : Nat) (info : TrainInfo) : State :=
  let s := s.linkTried l
  let fast := (s.link l).fast
  let s := if fast then s else s.dropUnacked l
  let k := s.link l
  let keep := if fast then k.unacked.filter (fun f => let d := seqAhead f.1 info.ack.toNat
                                                      decide (0 < d) && decide (d ≤ 512)) else []
  let s := s.setLink l { k with
    training := false, fast := false, attempts := 0, retryWait := false, downWait := false,
    unacked := keep, credits := startCredits keep, used := s.startUsed keep, seen := [], freed := [], held := [],
    txSeq := if fast then k.txSeq else 0, rxSeq := if fast then k.rxSeq else 0, rxAny := fast && k.rxAny,
    replayOn := false, replays := 0 }
  let s := (s.setReg .linkState 0 l 2).setReg .linkWidth 0 l (if width = 8 then 0 else 1)
  let s := (s.setReg .linkPartner 0 l info.chip.toNat).setReg .linkPartnerLink 0 l info.link
  (s.resend l keep).pump l

/-- TRAIN (R46, R602, R603, R604): the attempt ends with the locked lanes and the partner's TRAIN flits. -/
def execTrain (l : LinkId) (info : TrainInfo) (s : State) : Host.Outcome State Fault Refusal :=
  let k := s.link l
  if !k.training then stay s
  else
    let low := decide (bits info.locked.toNat 0 4 = 15)
    let high := decide (bits info.locked.toNat 4 4 = 15)
    let narrow := decide (s.reg .linkNarrow 0 l = 1) || info.narrow
    if !low && !high then fin (s.trainFail l)
    else if info.chip.toNat ≠ s.linkPeer l ∨ info.trayLog2 ≠ s.rd .klkTrayLog2 then
      let s := ((s.setReg .linkCableErr 0 l 1).setReg .linkPartner 0 l info.chip.toNat).setReg .linkPartnerLink 0 l info.link
      let s := s.errRecord { cls := 4, source := 3, unit := l, detail := info.chip.toNat }
      fin (s.trainFail l)
    else fin (s.linkUpNow l (if low && high && !narrow then 8 else 4) info)

/-! ### Routing (R625 to R629) -/

/-- The next hop at this chip toward chip `d` in the order of a lane: the chip and the even link of the pair. -/
def State.nextHop (s : State) (d lane : Nat) : Nat × Nat :=
  let slot := s.chip % 8 ^^^ d % 8
  let tray := s.chip / 8 ^^^ d / 8
  let intra : Nat × Nat := (s.chip / 8 * 8 + d % 8, 2 * (slot - 1))
  let cube (n : Nat) : Nat × Nat := (s.chip ^^^ (8 * 2 ^ n), 14 + 2 * n)
  let low := ((List.range 5).find? (fun n => tray.testBit n)).getD 0
  if lane = 0 then (if slot ≠ 0 then intra else cube low)
  else if tray ≠ 0 then cube tray.log2 else intra

/-- A chip is marked in service in KLK_REACH. -/
def State.reach (s : State) (c : Nat) : Bool := (s.reg .klkReach 0 (c / 64)).testBit (c % 64)

/-- A hop is usable. -/
def State.usable (s : State) (h : Nat × Nat) : Bool := s.reach h.1 && (s.linkUp h.2 || s.linkUp (h.2 + 1))

/-- Two messages belong to one flow (R623). -/
def Msg.oneFlow (a b : Msg) : Bool :=
  decide (a.op.vc = b.op.vc) && decide (a.srcChip = b.srcChip) && decide (a.src = b.src) && decide (a.dstChip = b.dstChip)

/-- The link that the previous message of an ordered flow took, while one is unacknowledged there. -/
def State.flowLink (s : State) (m : Msg) (e : Nat) : Option Nat :=
  if m.op.vc = 2 ∨ m.op.vc = 4 ∨ m.op.vc = 5 then
    [e, e + 1].find? (fun l => s.linkUp l && ((s.link l).waiting ++ (s.link l).unacked.flatMap (fun f => f.2)).any (fun x => x.oneFlow m))
  else none

/-- The link of a pair that a message takes (R53, R588, R622, R623). -/
def State.pickLink (s : State) (m : Msg) (e : Nat) : Nat :=
  if m.op = .treeArrive ∨ m.op = .treeRelease then (if s.linkUp e then e else e + 1)
  else match s.flowLink m e with
    | some l => l
    | none =>
      let free (l : Nat) : Bool := s.linkUp l && (s.link l).waiting.isEmpty
      if free e then e else if free (e + 1) then e + 1 else if s.linkUp e then e else e + 1

/-- Message `k` is the next of its channel, lane and output at the link switch (R624). -/
def State.switchNext (s : State) (k : Nat) (m : Msg) : Bool :=
  !((s.net.take k).any (fun x => decide (x.dstChip ≠ s.chip) && decide (x.op.vc = m.op.vc) && decide (x.lane = m.lane)
    && decide (s.nextHop x.dstChip x.lane = s.nextHop m.dstChip m.lane) && !(s.ordWaits x)))

/-- LINK_SWITCH_FORWARD (R39, R53, R624 to R628): message `k`, bound for another chip, goes to its next hop, moves to lane 1, or is dropped. -/
def execLinkSwitchForward (k : Nat) (s : State) : Host.Outcome State Fault Refusal :=
  match s.net[k]? with
  | none => stay s
  | some m =>
    if m.dstChip = s.chip ∨ s.ordWaits m ∨ s.switchNext k m = false then stay s
    else
      let h0 := s.nextHop m.dstChip m.lane
      let lane := if m.lane = 0 ∧ ¬ s.usable h0 then 1 else m.lane
      let h := s.nextHop m.dstChip lane
      let s := (s.take k).freeSlots m
      if !(s.usable h) then fin (s.giveUp m 1)
      else
        let l := s.pickLink m h.2
        let x := { m with lane := lane, link := 24 }
        fin ((s.setLink l { s.link l with waiting := (s.link l).waiting ++ [x] }).pump l)

/-! ### Receiving flits -/

/-- The core, or the host block (184), whose operation carries a tag. -/
def State.tagOwner (s : State) (tag : Nat) : Option Nat :=
  if (s.sluicePkt tag).isSome then some 184
  else (List.range 129).find? (fun u =>
    let c := s.core u
    (c.xferOf tag).isSome || decide (c.hold = .test tag) || c.posted.any (fun p => decide (p.tag = tag)) || c.waits.any (fun w => decide (w.wid = tag)))

/-- The unit on this chip that a message goes to, where its header does not name it: the controller of a request's address (R734), the unit whose
operation an answer names. -/
def State.localDst (s : State) (m : Msg) : Msg :=
  match m.op with
  | .read => { m with dst := s.memStop ((s.partOfFlight m.flight).getD 16) m.addr false }
  | .write => { m with dst := s.memStop ((s.partOfFlight m.flight).getD 16) m.addr true }
  | .atomic => { m with dst := s.memStop ((s.partOfFlight m.flight).getD 16) m.addr true }
  | .ledgerAdd => { m with dst := s.memStop ((s.partOfFlight m.flight).getD 16) m.addr true }
  | .ledgerSettle => { m with dst := s.memStop ((s.partOfFlight m.flight).getD 16) m.addr true }
  | .nack => { m with dst := if 0x8000 ≤ m.tag then bits m.tag 8 7 else (s.tagOwner m.tag).getD 255 }
  | .readData => { m with dst := (s.tagOwner m.tag).getD 255 }
  | .complete => { m with dst := (s.tagOwner m.tag).getD 255 }
  | .wake => { m with dst := (s.tagOwner m.tag).getD 255 }
  | .slcAck => { m with dst := (s.tagOwner m.tag).getD 255 }
  | _ => m

/-- In STANDBY a message addressed to the chip itself is NACKed with PART_DOWN (R770); answers, tree messages and MGMT still pass. -/
def State.standbyNack (s : State) (m : Msg) : Bool := decide (s.rd .kprPstateState = 2) && m.answered && decide (m.op.vc ≠ 5)

/-- An accepted message enters the chip (R629): a request takes its place at the link's LINKRX port (chapter 11), what passes through keeps its slots
until it is forwarded, and everything else is delivered to its endpoint (R639) and frees them. -/
def State.enter (s : State) (m : Msg) : State :=
  if m.dstChip ≠ s.chip then s.send m
  else
    let m := s.localDst m
    if s.standbyNack m then (s.freeSlots m).giveUp m 3
    else if m.op.vc = 0 ∨ m.op.vc = 3 then s.inject Cls.linkrx m.link m
    else if m.dst = 255 then s.freeSlots m
    else (s.freeSlots m).send m

/-- A route that R625 to R627 give: the partner's own next hop for the message leads over this pair. -/
def State.routeOk (s : State) (m : Msg) (l : Nat) : Bool :=
  let p := { s with regs := tabSet 0 (Fld.key .klkChipNum 0 0) (s.linkPeer l) s.regs }
  (m.op = .treeArrive ∨ m.op = .treeRelease) || decide ((p.nextHop m.dstChip m.lane).2 = l / 2 * 2)

/-- Takes the messages of a flit's slots in order (R611): `j` is the slot, `rep` says whether a NACK record may still be sent (R633). -/
def State.takeSlots (s : State) (l seq : Nat) (slots : Bytes) : Nat → Nat → Bool → State
  | 0, _, _ => s
  | fuel + 1, j, rep =>
    if 15 ≤ j then s
    else
      let b := slots.drop (16 * j)
      if field b 1 1 = 0 then
        -- every later slot must be zero
        if b.all (fun x => decide (x = 0)) then s else s.violation l Vi.slotBad seq j rep
      else
        let n := bits (field b 0 1) 4 4 + 1
        let vc := bits (field b 0 1) 0 3
        let lane := bits (field b 0 1) 3 1
        let c := 2 * vc + lane
        let k := s.link l
        let next (s : State) (r : Bool) : State := State.takeSlots s l seq slots fuel (j + n) r
        if 15 < j + n then s.violation l Vi.slotBad seq j rep
        else match opOfByte (field b 1 1) with
          | none => next (s.violation l Vi.vcBad seq j rep) false
          | some op =>
            if 6 ≤ vc ∨ op.vc ≠ vc then next (s.violation l Vi.vcBad seq j rep) false
            else if bits (field b 4 2) 11 5 ≠ 0 ∨ s.chips ≤ field b 2 1 then next (s.violation l Vi.hdrBad seq j rep) false
            else if allot c < tabGet 0 c k.held + n then next (s.violation l Vi.creditOver seq j rep) false
            else
              let m := parseMsg op (b.take (16 * n)) l
              let s := s.setLink l { k with held := tabSet 0 c (tabGet 0 c k.held + n) k.held }
              if !(s.routeOk m l) then next ((s.freeSlots m).violation l Vi.routeBad seq j rep) false
              else next (s.enter m) rep

/-- A REPLAY record (R615, R617): every flit from the named SEQ onward is sent again, as far as the replay buffer holds them. -/
def State.replayFrom (s : State) (l seq : Nat) : State :=
  let s := s.bump .linkReplays 0 l 1
  let k := s.link l
  s.resend l (k.unacked.filter (fun f => decide (seqAhead f.1 seq < 512)))

/-- REPLAY (R615, R643). -/
def execReplay (l : LinkId) (seq : Nat) (s : State) : Host.Outcome State Fault Refusal :=
  if s.linkUp l then fin (s.replayFrom l seq) else stay s

/-- A NACK record from the partner (R632): logged. -/
def execNackRecord (l : LinkId) (rec : CtrlRec) (s : State) : Host.Outcome State Fault Refusal :=
  if s.linkUp l then fin (s.nackLog l rec.reason.toNat rec.seq.toNat rec.slot.toNat) else stay s

/-- A HANDOVER received on link `l` names the other link of the pair, which is down (Table 13-7). -/
def State.handoverOk (s : State) (l n : Nat) : Bool := decide (n = pairOf l) && decide (s.reg .linkState 0 n ≠ 2)

/-- A HANDOVER record received on link `l` (R637, R648): the named link's later flits' messages go out on this one, first. -/
def State.handover (s : State) (l : Nat) (rec : CtrlRec) : State :=
  let n := rec.link.toNat
  let k := s.link n
  let later := k.unacked.filter (fun f => let d := seqAhead f.1 rec.seq.toNat
                                          decide (0 < d) && decide (d ≤ 512))
  let s := s.setLink n { k with unacked := [], downWait := false }
  let x := s.link l
  (s.setLink l { x with waiting := later.flatMap (fun f => f.2) ++ x.waiting }).pump l

/-- HANDOVER (R637). -/
def execHandover (l : LinkId) (rec : CtrlRec) (s : State) : Host.Outcome State Fault Refusal :=
  if s.linkUp l then fin (if s.handoverOk l rec.link.toNat then s.handover l rec else s.violation l Vi.ctrlBad rec.seq.toNat 0 true) else stay s

/-- The record in slot `j` of a CTRL flit; an empty slot holds none. `rep` says whether a NACK record may still be sent (R633). -/
def State.ctrlRec (s : State) (l : Nat) (b : Bytes) (j : Nat) (rep : Bool) : State × Bool :=
  let r : CtrlRec := ⟨BitVec.ofNat 8 (field b 0 1), BitVec.ofNat 16 (field b 1 2), BitVec.ofNat 8 (field b 3 1), BitVec.ofNat 8 (field b 4 1),
                      BitVec.ofNat 8 (field b 5 1)⟩
  if b.all (fun x => decide (x = 0)) then (s, rep)
  else match field b 0 1 with
    | 1 => (s.replayFrom l r.seq.toNat, rep)
    | 2 => (s.nackLog l r.reason.toNat r.seq.toNat r.slot.toNat, rep)
    | 3 => if s.handoverOk l r.link.toNat then (s.handover l r, rep) else (s.violation l Vi.ctrlBad r.seq.toNat j rep, false)
    | _ => (s.violation l Vi.ctrlBad 0 j rep, false)

/-- ACK of a received flit (R612, R613): flits up to the one named are acknowledged. -/
def State.takeAck (s : State) (l ack : Nat) : State :=
  let k := s.link l
  if k.unacked.any (fun f => decide (f.1 = ack)) then
    s.setLink l { k with unacked := k.unacked.filter (fun f => let d := seqAhead f.1 ack
                                                              decide (0 < d) && decide (d ≤ 512)) }
  else s

/-- An ACK names a flit that was not sent (Table 13-7): none of those unacknowledged, and none of those acknowledged before. -/
def Link.ackBad (k : Link) (ack : Nat) : Bool :=
  !(k.unacked.any (fun f => decide (f.1 = ack))) && !(decide (seqAhead (k.txSeq + 4095) ack < 2048))

/-- Slots come back from the oldest messages that hold some. DESIGN CHOICE (log 105): a report counts slots and names no message. -/
def slotsBack : List (Nat × Nat) → Nat → List (Nat × Nat)
  | [], _ => []
  | (p, n) :: t, d => if d < n then (p, n - d) :: t else slotsBack t (d - n)

/-- The slots that a cumulative credit report `v` gives back: the difference from the previous one (R620). -/
def Link.creditBack (k : Link) (j v : Nat) : Nat := (v + 256 - tabGet 0 j k.seen % 256) % 256

/-- A credit report exceeds the slots outstanding (Table 13-7). -/
def Link.creditBad (k : Link) (j v : Nat) : Bool := decide (allot j < tabGet 0 j k.credits + k.creditBack j v)

/-- One cumulative credit report (R620): the difference from the previous one is added. -/
def State.takeCredit (s : State) (l j v : Nat) : State :=
  let k := s.link l
  let d := k.creditBack j v
  s.setLink l { k with seen := tabSet 0 j v k.seen, credits := tabSet 0 j (tabGet 0 j k.credits + d) k.credits,
                       used := tabSet [] j (slotsBack (tabGet [] j k.used) d) k.used }

/-- The credit reports of a flit's header: channel and lane, and count. -/
def creditReports (f : Bytes) : List (Nat × Nat) :=
  (List.range 6).map (fun v => (2 * v, field f (6 + v) 1)) ++ [(2 * bits (field f 0 1) 4 3 + 1, field f 1 1)]

/-- The violations that a flit's header commits (Table 13-7, R632), in the order of the table. -/
def Link.headFaults (k : Link) (f : Bytes) : List Nat :=
  let ty := bits (field f 0 1) 0 4
  let d := seqAhead (bits (field f 2 2) 0 12) k.rxSeq
  let ackv := field f 4 2
  if 4 ≤ ty then [Vi.typeBad]
  else if ty = 3 then []
  else
    let noVc := decide (6 ≤ bits (field f 0 1) 4 3)
    (if noVc then [] else ((creditReports f).filter (fun x => k.creditBad x.1 x.2)).map (fun _ => Vi.creditRet))
      ++ (if ty = 1 ∧ 512 < d ∧ d + 512 < 4096 then [Vi.seqBad] else [])
      ++ (if ackv.testBit 15 && k.ackBad (bits ackv 0 12) then [Vi.ackBad] else [])
      ++ (if noVc || decide (bits (field f 2 2) 12 4 ≠ 0) || decide (bits ackv 12 3 ≠ 0) then [Vi.hdrBad] else [])

/-- Asks for a REPLAY of the expected SEQ (R614). -/
def State.askReplay (s : State) (l : Nat) : State :=
  let k := s.link l
  if k.replayOn then s
  else (s.setLink l { k with replayOn := true, replays := 1 }).emit
    (.linkCtrl l ⟨1, BitVec.ofNat 16 k.rxSeq, 0, BitVec.ofNat 8 l, 0⟩)

/-- A flit whose header is at fault is dropped whole: each violation is counted and logged, and the first answered (R632, R633). A DATA flit that
was the expected one, or ahead of it, is asked for again (R614). -/
def State.badFlit (s : State) (l : Nat) (f : Bytes) (codes : List Nat) : State :=
  let seq := bits (field f 2 2) 0 12
  let s := (codes.foldl (fun (acc : State × Bool) c => (acc.1.violation l c seq 0 acc.2, false)) (s, true)).1
  if bits (field f 0 1) 0 4 = 1 ∧ seqAhead seq (s.link l).rxSeq ≤ 512 ∧ s.linkUp l = true then s.askReplay l else s

/-- A flit whose CRC matches. -/
def State.goodFlit (s : State) (l : Nat) (f : Bytes) : State :=
  let ty := bits (field f 0 1) 0 4
  let seq := bits (field f 2 2) 0 12
  let ackv := field f 4 2
  let codes := (s.link l).headFaults f
  if codes ≠ [] then s.badFlit l f codes
  else if ty = 3 then s
  else
    let s := if ackv.testBit 15 then s.takeAck l (bits ackv 0 12) else s
    let s := (creditReports f).foldl (fun s x => s.takeCredit l x.1 x.2) s
    let s := if ty = 1 then
        let k := s.link l
        let d := seqAhead seq k.rxSeq
        if d = 0 then
          let s := s.setLink l { k with rxSeq := (k.rxSeq + 1) % 4096, rxAny := true, replayOn := false, replays := 0 }
          s.takeSlots l seq (f.drop 16) 15 0 true
        else if d ≤ 512 then s.askReplay l
        else s
      else if ty = 2 then ((List.range 15).foldl (fun (acc : State × Bool) j => acc.1.ctrlRec l (sliceBytes f (16 * (j + 1)) 16) j acc.2) (s, true)).1
      else s
    s.pump l

/-- FLIT_RECEIVE (R606 to R616, R620, R632): a frame received at time `t` ns, with the symbol errors of its two codewords. -/
def execFlitReceive (l : LinkId) (frame : FrameRx) (t : Nat) (s : State) : Host.Outcome State Fault Refusal :=
  if !(s.linkUp l) then stay s
  else
    let s := s.setLink l { s.link l with now := t }
    let s := s.setReg .linkViolRecent 0 l (min (recentOf (s.link l).violT t).length 255)
    if 8 < frame.err0 ∨ 8 < frame.err1 then fin ((s.bump .linkFecUncorr 0 l 1).askReplay l)
    else
      let n := frame.err0 + frame.err1
      let s := s.bump .linkFecCorr 0 l n
      let s := if n = 0 then s else { s with corr := tabSet 0 (768 + l.val) (tabGet 0 (768 + l.val) s.corr + n) s.corr }
      let f := sliceBytes frame.flit 0 256
      if flitCrc f ≠ field f 12 4 then fin ((s.bump .linkCrcFail 0 l 1).askReplay l)
      else fin (s.goodFlit l f)

/-- REPLAY_REPEAT (R614, R617): the pending REPLAY is sent again; when 8 have passed without the flit, the link retrains from step 3, with a
LINK record (Table 17-1). -/
def execReplayRepeat (l : LinkId) (s : State) : Host.Outcome State Fault Refusal :=
  let k := s.link l
  if !(s.linkUp l) || !k.replayOn then stay s
  else if k.replays < 8 then
    fin ((s.setLink l { k with replays := k.replays + 1 }).emit (.linkCtrl l ⟨1, BitVec.ofNat 16 k.rxSeq, 0, BitVec.ofNat 8 l, 0⟩))
  else
    let s := (s.setLink l { k with replayOn := false, replays := 0, training := true, fast := true }).setReg .linkState 0 l 1
    let s := s.bump .linkRetrains 0 l 1
    fin (s.errRecord { cls := 3, source := 3, unit := l, addr := k.rxSeq })

/-! ### Loss of a link -/

/-- LINK_DOWN (R637, R644): a link leaves UP, or has left it: what it received last is named over the other link of its pair. -/
def execLinkDown (l : LinkId) (s : State) : Host.Outcome State Fault Refusal :=
  let up := s.linkUp l
  if !up && !(s.link l).downWait then stay s
  else
    let s := if up then (s.leaveUp l 0).errRecord { cls := 3, source := 3, unit := l, action := 4, addr := ((s.link l).rxSeq + 4095) % 4096 } else s
    let k := s.link l
    fin (if s.linkUp (pairOf l) then
      s.emit (.linkCtrl (pairOf l) ⟨3, BitVec.ofNat 16 ((k.rxSeq + 4095) % 4096), 0, BitVec.ofNat 8 l, 0⟩)
    else s)

/-- HANDOVER_TIMEOUT (R638, R644): the other link of the pair has not been UP for 10 µs. -/
def execHandoverTimeout (l : LinkId) (s : State) : Host.Outcome State Fault Refusal :=
  let k := s.link l
  if !k.downWait || s.linkUp l || s.linkUp (pairOf l) then stay s
  else
    let lost := k.unacked.length
    let s := (s.setLink l { k with downWait := false }).dropUnacked l
    fin (if lost = 0 then s else s.errRecord { cls := 3, source := 3, unit := l, code := St.linkLost, action := 4 })

/-- CREDIT_STALL (R635): a waiting message of some channel has had too few credits for 10 ms. -/
def execCreditStall (l : LinkId) (s : State) : Host.Outcome State Fault Refusal :=
  let k := s.link l
  let short := k.waiting.any (fun m => decide (tabGet 0 (2 * m.op.vc + m.lane) k.credits < m.slots))
  if s.linkUp l && short then fin ((s.setReg .linkStall 0 l 1).quarantine l 0) else stay s

/-! ### MGMT messages -/

/-- Clears or sets a chip's bit of KLK_REACH (R642). -/
def State.setReach (s : State) (c : Nat) (b : Bool) : State :=
  s.setReg .klkReach 0 (c / 64) (putBits (s.reg .klkReach 0 (c / 64)) (c % 64) 1 (b2n b))

/-- A KEEPER message at the Keeper (R639, R642, R803): a DOWN notice (code 1, naming a chip) is acted on; anything else waits in the inbox; one that
finds the 64 KiB full is dropped and answered. -/
def State.keeperMsg (s : State) (m : Msg) : State :=
  if 65536 < sumOf s.inbox (fun x => 16 * x.slots) + 16 * m.slots then s.answer m .nack 5 [] false 0
  else if m.code = 1 then (s.setReach (m.addr % 256) false).endTreeLost
  else { s with inbox := s.inbox ++ [m] }

/-- KEEPER (R639). -/
def execKeeper (k : Nat) (s : State) : Host.Outcome State Fault Refusal :=
  match s.arrival .keeper k with
  | some m => fin ((s.take k).keeperMsg m)
  | none => stay s

/-- The lend fields of a queue as they are stored (R464): a lend queue outside the partition and flight stores LEND_EN as 0, and is recorded with
the offset and source given. -/
def State.setLend (s : State) (u q en core lq lmin off src : Nat) : State :=
  let ok := decide (s.partOf core = s.partOf u) && decide (s.reg .qdFlight core lq = s.reg .qdFlight u q)
  let s := ((s.setReg .qdLendCore u q core).setReg .qdLendQ u q lq).setReg .qdLendMin u q lmin
  if en = 1 ∧ ¬ ok then (s.setReg .qdLendEn u q 0).coreEvent u Gs.illegal 0x11 off src else s.setReg .qdLendEn u q en

end Sys2Proof.Machine
end

