-- ==== Sys2Proof/Machine/Towpath.lean ====
section
/-! DEFINITION. The Towpath engines (14_towpath_search.md): jobs, the priority queue, BEST-FIRST and SWEEP, check programs and results. -/

namespace Sys2Proof.Machine

/-! ### Intervals (R677, R678) -/

/-- A bound of an interval register in Q16.16. -/
inductive XInt where
  | ninf
  | fin (i : Int)
  | pinf
deriving DecidableEq, Repr

/-- An interval [lo, hi]. -/
structure Ival where
  lo : XInt
  hi : XInt
deriving DecidableEq, Repr

/-- The finite bounds of Q16.16. -/
def qMin : Int := -2147483647
def qMax : Int := 2147483646

/-- An exact lower bound, rounded down already: beyond the finite range it becomes −∞. -/
def loOf (i : Int) : XInt := if i < qMin ∨ qMax < i then .ninf else .fin i
/-- An exact upper bound: beyond the finite range it becomes +∞. -/
def hiOf (i : Int) : XInt := if i < qMin ∨ qMax < i then .pinf else .fin i

/-- A 32-bit word as a point (R677). -/
def ptWord (w : Nat) : Ival :=
  let i := sext 32 w
  if i < qMin then ⟨.ninf, .ninf⟩ else if qMax < i then ⟨.pinf, .pinf⟩ else ⟨.fin i, .fin i⟩

/-- An exact number in units of 2⁻¹⁶ as a point. -/
def ptInt (i : Int) : Ival := ⟨loOf i, hiOf i⟩

/-- a ≤ b among bounds. -/
def XInt.le : XInt → XInt → Bool
  | .ninf, _ => true
  | _, .pinf => true
  | .fin a, .fin b => decide (a ≤ b)
  | .fin _, .ninf => false
  | .pinf, _ => false

def XInt.lt (a b : XInt) : Bool := !(b.le a)
def XInt.min (a b : XInt) : XInt := if a.le b then a else b
def XInt.max (a b : XInt) : XInt := if a.le b then b else a

/-- The exact sum; none where it is undefined. -/
def XInt.add : XInt → XInt → Option XInt
  | .fin a, .fin b => some (.fin (a + b))
  | .ninf, .pinf => none
  | .pinf, .ninf => none
  | .ninf, _ => some .ninf
  | _, .ninf => some .ninf
  | .pinf, _ => some .pinf
  | _, .pinf => some .pinf

def XInt.neg : XInt → XInt
  | .ninf => .pinf
  | .fin a => .fin (-a)
  | .pinf => .ninf

/-- An exact bound as a lower or an upper one; `none` is the outward infinity (R678). -/
def asLo : Option XInt → XInt
  | some (.fin i) => loOf i
  | some x => x
  | none => .ninf
def asHi : Option XInt → XInt
  | some (.fin i) => hiOf i
  | some x => x
  | none => .pinf

def Ival.add (a b : Ival) : Ival := ⟨asLo (a.lo.add b.lo), asHi (a.hi.add b.hi)⟩
def Ival.neg (a : Ival) : Ival := ⟨a.hi.neg, a.lo.neg⟩
def Ival.sub (a b : Ival) : Ival := a.add b.neg

/-- The sign of a bound. -/
def XInt.sgn : XInt → Int
  | .ninf => -1
  | .fin i => if i < 0 then -1 else if i = 0 then 0 else 1
  | .pinf => 1

/-- The exact product in units of 2⁻³²; none for 0 × ∞. -/
def XInt.mul (a b : XInt) : Option XInt :=
  match a, b with
  | .fin x, .fin y => some (.fin (x * y))
  | _, _ => if a.sgn * b.sgn = 0 then none else if a.sgn * b.sgn < 0 then some .ninf else some .pinf

/-- A product back in units of 2⁻¹⁶, rounded down or up. -/
def XInt.down : XInt → XInt
  | .fin i => loOf (i / 65536)
  | x => x
def XInt.up : XInt → XInt
  | .fin i => hiOf (-(-i / 65536))
  | x => x

/-- The interval product: an undefined corner makes both bounds the outward infinities. -/
def Ival.mul (a b : Ival) : Ival :=
  match a.lo.mul b.lo, a.lo.mul b.hi, a.hi.mul b.lo, a.hi.mul b.hi with
  | some p, some q, some r, some t => ⟨((p.min q).min (r.min t)).down, ((p.max q).max (r.max t)).up⟩
  | _, _, _, _ => ⟨.ninf, .pinf⟩

/-- The interval contains 0. -/
def Ival.hasZero (a : Ival) : Bool := a.lo.le (.fin 0) && (XInt.fin 0).le a.hi

def Ival.sqr (a : Ival) : Ival :=
  match a.lo.mul a.lo, a.hi.mul a.hi with
  | some p, some q => ⟨if a.hasZero then .fin 0 else (p.min q).down, (p.max q).up⟩
  | _, _ => ⟨.ninf, .pinf⟩

def Ival.abs (a : Ival) : Ival :=
  let x := a.lo.max a.lo.neg
  let y := a.hi.max a.hi.neg
  ⟨if a.hasZero then .fin 0 else x.min y, x.max y⟩

/-- The square root of a Q16.16 bound that is not negative, rounded down or up. -/
def XInt.sqrtDown : XInt → XInt
  | .fin i => .fin (Nat.sqrt (i.toNat * 65536) : Nat)
  | x => x
def XInt.sqrtUp : XInt → XInt
  | .fin i => let n := i.toNat * 65536
              .fin (if Nat.sqrt n * Nat.sqrt n = n then Nat.sqrt n else Nat.sqrt n + 1 : Nat)
  | x => x

/-- A bound clamped to 0 to 0xFFFF_FFFF (SETC, SETH). -/
def XInt.clamp : XInt → Nat
  | .ninf => 0
  | .fin i => Nat.min i.toNat 0xFFFFFFFF
  | .pinf => 0xFFFFFFFF

/-! ### The job descriptor (Table 14-1) -/

def jMode (d : Bytes) : Nat := field d 0 1
def jSweep (d : Bytes) : Bool := (jMode d).testBit 0
def jBest (d : Bytes) : Bool := (jMode d).testBit 1
def jDl (d : Bytes) : Bool := (jMode d).testBit 2
def jBatch (d : Bytes) : Nat := bits (field d 1 1) 0 4 + 1
def jResK (d : Bytes) : Nat := field d 2 1
def jVecLen (d : Bytes) : Nat := (bits (field d 3 1) 0 4 + 1) * 16
def jStamp (d : Bytes) : Nat := field d 4 2
def jDone (d : Bytes) : Nat := bits (field d 6 2) 0 14
def jDoneEn (d : Bytes) : Bool := (field d 6 2).testBit 15
def jLimit (d : Bytes) : Nat := field d 8 4
def jStart (d : Bytes) : Nat := field d 12 4
def jGoal (d : Bytes) : Nat := field d 16 4
def jNodes (d : Bytes) : Nat := field d 20 4
def jQlimit (d : Bytes) : Nat := field d 24 4
def jExpMax (d : Bytes) : Nat := field d 28 4
def jRowptr (d : Bytes) : Nat := field d 32 8
def jEdges (d : Bytes) : Nat := field d 40 8
def jNodeData (d : Bytes) : Nat := field d 48 8
def jState (d : Bytes) : Nat := field d 56 8
def jClasses (d : Bytes) : Nat := field d 64 8
def jVec (d : Bytes) : Nat := field d 72 8
def jQuery (d : Bytes) : Nat := field d 80 8
def jResult (d : Bytes) : Nat := field d 88 8

/-- The rules of R656; a DONE sluice is tested where the signal is enabled. -/
def State.jobBad (s : State) (p : Nat) (d : Bytes) : Bool :=
  decide (bits (jMode d) 3 5 ≠ 0) || decide (bits (field d 1 1) 4 4 ≠ 0) || decide (jResK d = 0) || decide (64 < jResK d)
  || decide (bits (field d 3 1) 4 4 ≠ 0) || (field d 6 2).testBit 14 || decide (jLimit d = 0) || decide (jNodes d = 0)
  || decide (2 ^ 24 < jNodes d) || decide (jQlimit d = 0) || decide (65536 < jQlimit d) || decide (jRowptr d % 8 ≠ 0)
  || decide (jEdges d % 16 ≠ 0) || decide (jState d % 16 ≠ 0) || decide (jClasses d % 64 ≠ 0) || decide (jResult d % 64 ≠ 0)
  || (sliceBytes d 96 32).any (fun x => decide (x ≠ 0)) || (jDoneEn d && !(s.inSluices p (jDone d)))
  || (if jSweep d then decide (jGoal d = 0) || decide (2 ^ 24 < jStart d + jGoal d)
      else decide (jNodes d ≤ jStart d) || (decide (jGoal d ≠ 0xFFFFFFFF) && decide (jNodes d ≤ jGoal d)))

/-! ### Memory accesses of an engine (R655) -/

/-- An engine's accesses in one step: the state with lines counted, and the status of the first that failed; 255 marks a line for which an
earlier request still waits, so that the step cannot happen yet. `ecc` lists the lines in which the memory code finds errors. -/
structure TowIo where
  s   : State
  bad : Nat
  ecc : List MemErr

/-- The traffic class of a job (Table 11-1). -/
def jCls (d : Bytes) : Nat := if jDl d then Cls.towdl else Cls.towbe

/-- A read of a job of engine `e`. -/
def TowIo.read (x : TowIo) (e p : Nat) (d : Bytes) (a n : Nat) : TowIo × Bytes :=
  if x.bad ≠ 0 then (x, [])
  else if !(x.s.clearPa (jCls d) e p a n) then ({ x with bad := 255 }, [])
  else
    let s := x.s.memErrs p a n x.ecc
    let r := s.readPa p a n
    let s := s.countLines (jCls d) e (lineCount a n)
    if r.2.2 ≠ 0 then ({ x with s := if r.2.2 = St.dmaXlate then s.noteXlate p else s, bad := St.towMem }, [])
    else ({ x with s := s }, r.1)

/-- A write of a job; one that fails translation ends the job as a read does. -/
def TowIo.write (x : TowIo) (e p : Nat) (d : Bytes) (a : Nat) (l : Bytes) : TowIo :=
  if x.bad ≠ 0 then x
  else if !(x.s.clearPa (jCls d) e p a l.length) then { x with bad := 255 }
  else
    let r := (x.s.countLines (jCls d) e (lineCount a l.length)).writePa p a l false
    { x with s := r.1, bad := if r.2 = 0 then 0 else St.towMem }

/-- A node state record (Table 14-3) as it reads under R658: G, PARENT, KEY, CLOSED. -/
structure NodeRec where
  g      : Nat
  parent : Nat
  key    : Nat
  closed : Bool
deriving DecidableEq, Repr

def readNode (stamp : Nat) (b : Bytes) : NodeRec :=
  if field b 12 2 ≠ stamp then ⟨0xFFFFFFFF, field b 4 4, field b 8 4, false⟩
  else ⟨field b 0 4, field b 4 4, field b 8 4, (field b 14 2).testBit 0⟩

def NodeRec.toBytes (r : NodeRec) (stamp : Nat) : Bytes :=
  Machine.toBytes 4 r.g ++ Machine.toBytes 4 r.parent ++ Machine.toBytes 4 r.key ++ Machine.toBytes 2 stamp ++ Machine.toBytes 2 (b2n r.closed)

def TowIo.node (x : TowIo) (e p : Nat) (d : Bytes) (u : Nat) : TowIo × NodeRec :=
  let r := x.read e p d (jState d + 16 * u) 16
  (r.1, readNode (jStamp d) r.2)

def TowIo.putNode (x : TowIo) (e p : Nat) (d : Bytes) (u : Nat) (r : NodeRec) : TowIo :=
  x.write e p d (jState d + 16 * u) (r.toBytes (jStamp d))

/-- The engine's answer to its accesses: the step does not happen while a line is waited for. -/
def TowIo.done (x : TowIo) (s0 : State) (f : State → State) : Host.Outcome State Fault Refusal :=
  if x.bad = 255 then stay s0 else fin (f x.s)

/-! ### The end of a job -/

/-- The result record (Table 14-5). -/
def resultRec (outcome : Nat) (job : TowJob) (run : TowRun) (t : Nat) : Bytes :=
  let d := job.desc
  let ent := run.best.map (fun x => if jSweep d then (x.2.1, x.1) else (x.2.2, x.1))
  let first := match run.best with
    | x :: _ => if jSweep d then (x.2.1, x.1) else (x.2.2, x.2.1)
    | [] => (0xFFFFFFFF, 0xFFFFFFFF)
  let node := if outcome = 0 then (jGoal d, run.goalG) else first
  let k := Nat.min (jResK d) 64
  toBytes 1 outcome ++ toBytes 1 (b2n run.qtrunc + 2 * b2n run.progEnd) ++ toBytes 2 job.slot ++ toBytes 4 node.1 ++ toBytes 4 node.2
    ++ toBytes 4 run.expanded ++ toBytes 4 run.checked ++ toBytes 4 run.rejected ++ toBytes 4 (t - job.t0) ++ toBytes 36 0
    ++ (List.range k).flatMap (fun j => match ent[j]? with
        | some x => toBytes 4 x.1 ++ toBytes 4 x.2
        | none => toBytes 8 0xFFFFFFFFFFFFFFFF)

/-- Outcomes of Table 14-5. -/
def To.goal : Nat := 0
def To.exhausted : Nat := 1
def To.limit : Nat := 2
def To.swept : Nat := 3
def To.dlBest : Nat := 4
def To.dlKeep : Nat := 5
def To.aborted : Nat := 6

/-- Ends a job (R682, R685, Table 14-6): the status registers and counts are set, its record is to be written, and its DONE signal waits until the
record is visible. Under KEEP a deadline writes only OUTCOME and JOBSEQ. A job whose descriptor could not be read has no record. -/
def State.endJob (s : State) (e : Nat) (job : TowJob) (run : TowRun) (outcome t : Nat) : State :=
  let d := job.desc
  let p := job.part
  let recs := if d.isEmpty then []
    else if outcome = To.dlKeep then [(jResult d, toBytes 1 outcome), (jResult d + 2, toBytes 2 job.slot)]
    else [(jResult d, resultRec outcome job run t)]
  let s := s.count .towJobs e 0 1
  let s := if 0xB0 ≤ outcome then ((s.setReg .towErr e 0 1).setReg .towPart e 0 p).setReg .towCode e 0 outcome else s
  let s := if jDl d && (decide (outcome = To.dlBest) || decide (outcome = To.dlKeep)) then s.setReg .towMissed e 0 1 else s
  let k := s.tow e
  s.setTow e { k with run := if (k.run.map (fun r => r.job.ord)) = some job.ord then none else k.run,
                      jobs := k.jobs.filter (fun j => decide (j.ord ≠ job.ord)),
                      done := k.done ++ [⟨p, jCls d, jDone d, jDoneEn d, recs⟩], now := max k.now t }

/-- A run with nothing done yet. -/
def emptyRun (job : TowJob) : TowRun := { job := job }

/-- The outcome of a job whose limit has come (R682). -/
def dlOutcome (d : Bytes) : Nat := if jBest d then To.dlBest else To.dlKeep

/-! ### Taking and starting jobs -/

/-- Takes descriptors from a ring while the doorbell count exceeds TAKEN, fewer than 32 jobs are held (R650 to R652), and the engine may read
the next one: one for each of the times at which their doorbell units took effect (R654). -/
def State.takeJobs (s : State) (e p : Nat) (ecc : List MemErr) : List Nat → State
  | [] => s
  | t :: later =>
    let k := s.tow e
    let taken := s.reg .towRingTaken e p
    let a := 128 * (s.reg .towRingBase e p / 128) + 128 * (taken % 2 ^ s.reg .towRingSizeLog2 e p)
    if s.slcCount (s.reg .towRingDoorbell e p) ≤ taken ∨ 32 ≤ k.jobs.length + b2n k.run.isSome ∨ !(s.portOpen Cls.towbe e)
      ∨ !(s.clearPa Cls.towbe e p a 128) then s
    else
      let s := s.memErrs p a 128 ecc
      let r := s.readPa p a 128
      let s := if r.2.2 = St.dmaXlate then s.noteXlate p else s
      let s := (s.countLines Cls.towbe e 2).count .towRingTaken e p 1
      let job : TowJob := ⟨p, taken, if r.2.2 = 0 then r.1 else [], t, k.nextOrd⟩
      (s.setTow e { k with jobs := k.jobs ++ [job], nextOrd := k.nextOrd + 1, now := max k.now t }).takeJobs e p ecc later

/-- JOB_TAKE (R650): `t.arg` holds the times at which the doorbell's SIGNALs took effect, one for each descriptor. -/
def execJobTake (e : TowId) (p : PartId) (t : Met (List Nat) MemErr) (s : State) : Host.Outcome State Fault Refusal :=
  if s.reg .towRingEn e p = 1 ∧ s.reg .partState 0 p = 1 then fin (s.takeJobs e p t.errs t.arg) else stay s

/-- The job that starts next (R653): the deadline job of earliest limit, ties to the lower partition and then the earlier slot; else best-effort jobs
round robin over partitions. -/
def pickJob (k : Tow) : Option TowJob :=
  let dl := k.jobs.filter (fun j => jDl j.desc)
  match dl with
  | j0 :: t => some (t.foldl (fun b j =>
      let lb := b.t0 + jLimit b.desc
      let lj := j.t0 + jLimit j.desc
      if lj < lb ∨ (lj = lb ∧ (j.part < b.part ∨ (j.part = b.part ∧ j.slot < b.slot))) then j else b) j0)
  | [] =>
    match ((List.range 16).map (fun i => (k.rr + 1 + i) % 16)).find? (fun p => k.jobs.any (fun j => decide (j.part = p))) with
    | some p => k.jobs.find? (fun j => decide (j.part = p))
    | none => none

/-- JOB_START (R653, R656, R664, R684): the engine is free and starts the next job. -/
def execJobStart (e : TowId) (t : Nat) (s : State) : Host.Outcome State Fault Refusal :=
  let k := s.tow e
  if k.run.isSome then stay s
  else match pickJob k with
  | none => stay s
  | some job =>
    let d := job.desc
    if !(s.portOpen (jCls d) e) then stay s
    else
      let s1 := s.setTow e { k with rr := if jDl d then k.rr else job.part, now := max k.now t }
      if d.isEmpty then fin (s1.endJob e job (emptyRun job) St.towMem t)
      else if s.jobBad job.part d then fin (s1.endJob e job (emptyRun job) St.towDesc t)
      else if jLimit d ≤ t - job.t0 then fin (s1.endJob e job (emptyRun job) (dlOutcome d) t)
      else
        let go (s : State) (r : TowRun) : State :=
          s.setTow e { s.tow e with run := some r, jobs := (s.tow e).jobs.filter (fun j => decide (j.ord ≠ job.ord)) }
        if jSweep d then fin (go s1 { emptyRun job with cand := jStart d })
        else
          let x := (TowIo.mk s1 0 []).putNode e job.part d (jStart d) ⟨0, jStart d, 0, false⟩
          x.done s (fun s => if x.bad ≠ 0 then s.endJob e job (emptyRun job) x.bad t
            else go s { emptyRun job with queue := [(0, jStart d, 0)], nextOrd := 1 })

/-! ### The priority queue -/

/-- The entry popped next (R661). -/
def popMin (q : List (Nat × Nat × Nat)) : Option (Nat × Nat × Nat) :=
  q.foldl (fun b x => match b with
    | none => some x
    | some y => if x.1 < y.1 ∨ (x.1 = y.1 ∧ x.2.2 < y.2.2) then some x else b) none

/-- The entry evicted next (R662). -/
def popMax (q : List (Nat × Nat × Nat)) : Option (Nat × Nat × Nat) :=
  q.foldl (fun b x => match b with
    | none => some x
    | some y => if y.1 < x.1 ∨ (x.1 = y.1 ∧ y.2.2 < x.2.2) then some x else b) none

/-- An insert under QLIMIT (R662, R691). -/
def TowRun.insert (r : TowRun) (key node : Nat) : TowRun :=
  let ent := (key, node, r.nextOrd)
  if r.queue.length < jQlimit r.job.desc then { r with queue := r.queue ++ [ent], nextOrd := r.nextOrd + 1 }
  else match popMax r.queue with
    | none => r
    | some w => if w.1 ≤ key then { r with qtrunc := true }
                else { r with queue := r.queue.erase w ++ [ent], nextOrd := r.nextOrd + 1, qtrunc := true }

/-! ### BEST-FIRST -/

/-- Lists the edges of node `u` (R657): none where its ROWPTR entries fall. -/
def TowIo.rows (x : TowIo) (e p : Nat) (d : Bytes) (u : Nat) : TowIo × Nat × Nat :=
  let a := x.read e p d (jRowptr d + 4 * u) 8
  let lo := field a.2 0 4
  let hi := field a.2 4 4
  if a.1.bad = 0 ∧ hi < lo then ({ a.1 with bad := St.towRange }, 0, 0) else (a.1, lo, hi - lo)

/-- Pops of a batch (R665, R666): `n` entries are left; the flag says that the GOAL was popped. -/
def batchPops (e p : Nat) (d : Bytes) : Nat → TowIo → TowRun → TowIo × TowRun × Bool
  | 0, x, r => (x, r, false)
  | n + 1, x, r =>
    if x.bad ≠ 0 ∨ (jExpMax d ≠ 0 ∧ jExpMax d ≤ r.expanded) then (x, r, false)
    else match popMin r.queue with
    | none => (x, r, false)
    | some w =>
      let r := { r with queue := r.queue.erase w }
      let y := x.node e p d w.2.1
      if y.1.bad ≠ 0 then (y.1, r, false)
      else if y.2.closed ∨ y.2.key ≠ w.1 then batchPops e p d n y.1 r
      else
        let x := y.1.putNode e p d w.2.1 { y.2 with closed := true }
        let r := { r with expanded := r.expanded + 1 }
        if w.2.1 = jGoal d then (x, { r with goalG := y.2.g }, true)
        else
          let z := x.rows e p d w.2.1
          let es : List TowEdge := (List.range z.2.2).map (fun i => ⟨w.2.1, y.2.g, z.2.1 + i, 0, false, false, 0, 0⟩)
          batchPops e p d n z.1 { r with edges := r.edges ++ es }

/-- The limit of a job has passed at time `t`: it pops and checks nothing more (R682). At the limit itself it may still end at its goal (R689). -/
def TowRun.late (r : TowRun) (t : Nat) : Bool := decide (jLimit r.job.desc < t - r.job.t0)

/-- BATCH_POP (R665, R666, R670, R671, R682). -/
def execBatchPop (e : TowId) (t : Met Nat MemErr) (s : State) : Host.Outcome State Fault Refusal :=
  let k := s.tow e
  match k.run with
  | none => stay s
  | some r =>
    let d := r.job.desc
    if jSweep d || !r.edges.isEmpty || r.late t.arg || !(s.portOpen (jCls d) e) then stay s
    else if jExpMax d ≠ 0 ∧ jExpMax d ≤ r.expanded then fin (s.endJob e r.job r To.limit t.arg)
    else if r.queue.isEmpty then fin (s.endJob e r.job r To.exhausted t.arg)
    else
      let y := batchPops e r.job.part d (jBatch d) ⟨s, 0, t.errs⟩ r
      y.1.done s (fun s =>
        if y.1.bad ≠ 0 then s.endJob e r.job { y.2.1 with edges := [] } y.1.bad t.arg
        else if y.2.2 then s.endJob e r.job y.2.1 To.goal t.arg
        else s.setTow e { s.tow e with run := some y.2.1, now := max k.now t.arg })

/-- One edge's relaxation (R669, R692). -/
def relax (e p : Nat) (d : Bytes) (x : TowIo) (r : TowRun) (ed : TowEdge) : TowIo × TowRun :=
  if x.bad ≠ 0 ∨ !ed.ok then (x, r)
  else
    let y := x.node e p d ed.target
    if y.1.bad ≠ 0 ∨ y.2.closed ∨ y.2.g ≤ ed.cost then (y.1, r)
    else (y.1.putNode e p d ed.target ⟨ed.cost, ed.u, ed.cost + ed.h, false⟩, r.insert (ed.cost + ed.h) ed.target)

/-- BATCH_RELAX (R669, R670, R682): every edge of the batch has been checked. -/
def execBatchRelax (e : TowId) (t : Met Nat MemErr) (s : State) : Host.Outcome State Fault Refusal :=
  let k := s.tow e
  match k.run with
  | none => stay s
  | some r =>
    let d := r.job.desc
    if jSweep d || r.edges.isEmpty || r.edges.any (fun x => !x.done) || r.late t.arg || !(s.portOpen (jCls d) e) then stay s
    else
      let y := r.edges.foldl (fun (acc : TowIo × TowRun) ed => relax e r.job.part d acc.1 acc.2 ed) (⟨s, 0, t.errs⟩, { r with edges := [] })
      y.1.done s (fun s => if y.1.bad ≠ 0 then s.endJob e r.job y.2 y.1.bad t.arg
        else s.setTow e { s.tow e with run := some y.2, now := max k.now t.arg })

/-! ### Check programs (R676 to R680, Table 14-4) -/

/-- What a check program reads: source, target and goal node data, the edge, the class entry, and the two vectors; `goal` is none in SWEEP. -/
structure ChkEnv where
  src   : Bytes
  tgt   : Bytes
  goal  : Option Bytes
  edge  : Bytes
  cls   : Bytes
  query : Bytes
  vec   : Bytes
  /-- VEC and QUERY are both given; the statuses of reading the goal node and the vectors -/
  hasVec : Bool
  goalBad : Nat
  vecBad : Nat

/-- The state of a check program. -/
structure Chk where
  regs : List Ival
  cost : Nat
  h    : Nat

/-- How a check program ends. -/
inductive ChkEnd where
  | accept (cost h : Nat)
  | reject
  | progEnd
  | stop (status : Nat)
deriving DecidableEq, Repr

/-- Σ QUERY[i] × VEC[i] of INT8 elements. -/
def dot8 (q v : Bytes) : Int := (List.zip q v).foldl (fun (a : Int) x => a + x.1.toInt * x.2.toInt) 0

/-- The register that an arithmetic or load instruction writes, or none where OP is not one. -/
def chkVal (env : ChkEnv) (op imm : Nat) (a b : Ival) : Option Ival :=
  match op with
  | 0x01 => some (ptWord (field env.src (4 * (imm % 8)) 4))
  | 0x02 => some (ptWord (field env.tgt (4 * (imm % 8)) 4))
  | 0x03 => some (match env.goal with
      | some g => ptWord (field g (4 * (imm % 8)) 4)
      | none => ptWord (Config.freeGoalWord (imm % 8)).toNat)
  | 0x04 => some (if imm % 2 = 0 then ptInt (field env.edge 8 4) else ptWord (field env.edge 12 4))
  | 0x05 => some (ptWord (field env.cls (4 + 4 * (imm % 16)) 4))
  | 0x06 => some (ptInt (sext 14 imm * 65536))
  | 0x08 => some (a.add b)
  | 0x09 => some (a.sub b)
  | 0x0A => some (a.mul b)
  | 0x0B => some a.sqr
  | 0x0C => some a.abs
  | 0x0D => some a.neg
  | 0x0E => some ⟨a.lo.min b.lo, a.hi.min b.hi⟩
  | 0x0F => some ⟨a.lo.max b.lo, a.hi.max b.hi⟩
  | 0x10 => some ⟨a.lo.min b.lo, a.hi.max b.hi⟩
  | 0x11 => some ⟨asLo (a.lo.add b.hi.neg), asHi (a.hi.add b.hi)⟩
  | 0x12 => some ⟨(a.lo.max (.fin 0)).sqrtDown, a.hi.sqrtUp⟩
  | 0x13 => some (ptInt (dot8 env.query env.vec * 256))
  | _ => none

/-- Runs a check program: `n` instructions are left of the 64, `pc` lies within the region of words `w`. -/
def runCheck (env : ChkEnv) (sweep : Bool) (w : Nat → Nat) : Nat → Nat → Chk → ChkEnd
  | 0, _, _ => .progEnd
  | n + 1, pc, c =>
    if 256 ≤ pc then .progEnd
    else
      let i := w pc
      let op := bits i 26 6
      let imm := bits i 0 14
      let a := nth c.regs (bits i 18 4) ⟨.fin 0, .fin 0⟩
      let b := nth c.regs (bits i 14 4) ⟨.fin 0, .fin 0⟩
      if op = 0x19 then .accept c.cost c.h
      else if op = 0x1A then .reject
      else if op = 0x14 then (if a.hi.le b.lo then runCheck env sweep w n (pc + 1) c else .reject)
      else if op = 0x15 then (if b.hi.le a.lo then runCheck env sweep w n (pc + 1) c else .reject)
      else if op = 0x16 then
        if imm % 64 = 0 then .stop St.towProg
        else runCheck env sweep w n (if a.hi.lt b.lo then pc + 1 + imm % 64 else pc + 1) c
      else if op = 0x17 then runCheck env sweep w n (pc + 1) { c with cost := a.hi.clamp }
      else if op = 0x18 then runCheck env sweep w n (pc + 1) (if sweep then c else { c with h := a.lo.clamp })
      else if op = 0x03 ∧ sweep then .stop St.towProg
      else if op = 0x03 ∧ env.goalBad ≠ 0 then .stop env.goalBad
      else if op = 0x05 ∧ imm % 16 = 15 then .stop St.towProg
      else if op = 0x12 ∧ a.hi.lt (.fin 0) then .reject
      else if op = 0x13 ∧ !env.hasVec then .stop St.towProg
      else if op = 0x13 ∧ env.vecBad ≠ 0 then .stop env.vecBad
      else match chkVal env op imm a b with
        | none => .stop St.towProg
        | some v => runCheck env sweep w n (pc + 1) { c with regs := setAt c.regs (bits i 22 4) v }

/-- A word of an engine's program store; a word that nothing has written since a P reset is a free value (Table 14-6). -/
def State.towWord (s : State) (e w : Nat) : Nat :=
  match (s.tow e).prog.find? (fun x => decide (x.1 = w)) with
  | some x => x.2
  | none => if (s.tow e).progGen = 0 then 0 else (Config.freeTowProg e (s.tow e).progGen w).toNat

/-- A read whose status the program meets only when it needs the data. -/
def TowIo.peek (x : TowIo) (e p : Nat) (d : Bytes) (a n : Nat) (want : Bool) : TowIo × Bytes × Nat :=
  if x.bad ≠ 0 ∨ !want then (x, [], 0)
  else
    let y := x.read e p d a n
    if y.1.bad = St.towMem then ({ y.1 with bad := 0 }, y.2, St.towMem) else (y.1, y.2, 0)

/-- Checks the edge of record number `idx` that leaves node `u` (SWEEP: its AUX): its target, and how its program ended; none where the edge is
skipped because its target is CLOSED (R667). -/
def checkEdge (e p : Nat) (d : Bytes) (x : TowIo) (u idx : Nat) : TowIo × Nat × Option ChkEnd :=
  let sweep := jSweep d
  let r := x.read e p d (jEdges d + 16 * idx) 16
  let tgt := field r.2 0 4
  let src := if sweep then field r.2 5 3 else u
  if r.1.bad ≠ 0 then (r.1, 0, none)
  else if jNodes d ≤ tgt ∨ (sweep = true ∧ jNodes d ≤ src) then ({ r.1 with bad := St.towRange }, 0, none)
  else
    let st := if sweep then (r.1, (⟨0, 0, 0, false⟩ : NodeRec)) else r.1.node e p d tgt
    if st.1.bad ≠ 0 ∨ st.2.closed then (st.1, tgt, none)
    else
      let a := st.1.read e p d (jNodeData d + 32 * src) 32
      let b := a.1.read e p d (jNodeData d + 32 * tgt) 32
      let c := b.1.read e p d (jClasses d + 64 * field r.2 4 1) 64
      let hasGoal := !sweep && decide (jGoal d ≠ 0xFFFFFFFF)
      let g := c.1.peek e p d (jNodeData d + 32 * jGoal d) 32 hasGoal
      let hasVec := decide (jVec d ≠ 0) && decide (jQuery d ≠ 0)
      let q := g.1.peek e p d (jQuery d) (jVecLen d) hasVec
      let v := q.1.peek e p d (jVec d + jVecLen d * tgt) (jVecLen d) hasVec
      if v.1.bad ≠ 0 then (v.1, tgt, none)
      else
        let env : ChkEnv := { src := a.2, tgt := b.2, goal := if hasGoal then some g.2.1 else none, edge := r.2, cls := c.2, query := q.2.1,
                              vec := v.2.1, hasVec := hasVec, goalBad := g.2.2, vecBad := if q.2.2 ≠ 0 then q.2.2 else v.2.2 }
        let w (pc : Nat) : Nat := v.1.s.towWord e (256 * p + pc)
        (v.1, tgt, some (runCheck env sweep w 64 (field c.2 0 1) ⟨List.replicate 16 ⟨.fin 0, .fin 0⟩, field r.2 8 4, 0⟩))

/-- Puts an entry into a ranked list of at most `k`, by (first, second, third). -/
def insRank (x : Nat × Nat × Nat) : List (Nat × Nat × Nat) → List (Nat × Nat × Nat)
  | [] => [x]
  | y :: t => if x.1 < y.1 ∨ (x.1 = y.1 ∧ (x.2.1 < y.2.1 ∨ (x.2.1 = y.2.1 ∧ x.2.2 < y.2.2))) then x :: y :: t else y :: insRank x t

/-- A node reached at (h, cost) (R672). -/
def TowRun.reached (r : TowRun) (h cost node : Nat) : TowRun :=
  let had := r.best.find? (fun x => decide (x.2.2 = node))
  let better := match had with
    | some x => decide (h < x.1) || (decide (h = x.1) && decide (cost < x.2.1))
    | none => true
  if better then { r with best := (insRank (h, cost, node) (r.best.filter (fun x => decide (x.2.2 ≠ node)))).take (jResK r.job.desc) } else r

/-- What a finished check does to a run: counts, flags, and the edge's outcome. -/
def TowRun.checkedEdge (r : TowRun) (c : ChkEnd) : TowRun :=
  let r := { r with checked := r.checked + 1 }
  match c with
  | .accept _ _ => r
  | .progEnd => { r with rejected := r.rejected + 1, progEnd := true }
  | _ => { r with rejected := r.rejected + 1 }

/-- The new cost and key of an accepted edge (R668): none where the key saturates. -/
def newCost (g cost h : Nat) : Option Nat := if 0xFFFFFFFF < g + cost + h then none else some (g + cost)

/-- A SWEEP candidate has been checked (R674, R675): it is ranked where every segment was accepted. -/
def TowRun.candDone (r : TowRun) : TowRun :=
  let ok := r.edges.all (fun x => x.ok)
  let cost := Nat.min (sumOf r.edges (fun x => x.cost)) 0xFFFFFFFF
  let best := if ok then (insRank (cost, r.cand, 0) r.best).take (jResK r.job.desc) else r.best
  { r with best := best, edges := [], cand := r.cand + 1, expanded := r.expanded + 1 }

/-- The first edge of a run that has not been checked, with its place. -/
def TowRun.nextEdge (r : TowRun) : Option (Nat × TowEdge) :=
  (r.edges.zipIdx.find? (fun x => !x.1.done)).map (fun x => (x.2, x.1))

/-- EDGE_CHECK (R667, R673 to R682): the next unchecked edge of the batch, or the next segment of the present SWEEP candidate. -/
def execEdgeCheck (e : TowId) (t : Met Nat MemErr) (s : State) : Host.Outcome State Fault Refusal :=
  let k := s.tow e
  match k.run with
  | none => stay s
  | some r =>
    let d := r.job.desc
    let p := r.job.part
    if r.late t.arg || !(s.portOpen (jCls d) e) then stay s
    else
      -- a SWEEP candidate's segments are listed when its first is due
      let z := if jSweep d && r.edges.isEmpty then (TowIo.mk s 0 t.errs).rows e p d r.cand else (TowIo.mk s 0 t.errs, 0, 0)
      let r := if jSweep d && r.edges.isEmpty then
          { r with edges := (List.range z.2.2).map (fun i => (⟨0, 0, z.2.1 + i, 0, false, false, 0, 0⟩ : TowEdge)) } else r
      let save (s : State) (r : TowRun) : State :=
        let r := if jSweep d && r.edges.all (fun x => x.done) then r.candDone else r
        if jSweep d && decide (jStart d + jGoal d ≤ r.cand) then s.endJob e r.job r To.swept t.arg
        else s.setTow e { s.tow e with run := some r, now := max k.now t.arg }
      match r.nextEdge with
      | none => if jSweep d then z.1.done s (fun s => if z.1.bad ≠ 0 then s.endJob e r.job r z.1.bad t.arg else save s r) else stay s
      | some (i, ed) =>
        let y := checkEdge e p d z.1 ed.u ed.idx
        y.1.done s (fun s =>
          if y.1.bad ≠ 0 then s.endJob e r.job r y.1.bad t.arg
          else match y.2.2 with
            | none => save s { r with edges := r.edges.eraseIdx i }
            | some (.stop st) => s.endJob e r.job { r with checked := r.checked + 1 } st t.arg
            | some c =>
              let r1 := r.checkedEdge c
              match c with
              | .accept cost h =>
                if jSweep d then save s { r1 with edges := setAt r1.edges i { ed with done := true, ok := true, cost := cost, target := y.2.1 } }
                else match newCost ed.g cost h with
                  | some nc =>
                    let r2 := r1.reached h nc y.2.1
                    save s { r2 with edges := setAt r2.edges i { ed with done := true, ok := true, cost := nc, h := h, target := y.2.1 } }
                  | none => save s { r1 with rejected := r1.rejected + 1, edges := setAt r1.edges i { ed with done := true, target := y.2.1 } }
              | _ => save s { r1 with edges := setAt r1.edges i { ed with done := true, target := y.2.1 } })

/-! ### Limits, results, urgency -/

/-- JOB_DEADLINE (R682 to R684): the job of number `id`, running or held, has reached its LIMIT_NS. -/
def execJobDeadline (e : TowId) (id t : Nat) (s : State) : Host.Outcome State Fault Refusal :=
  let k := s.tow e
  match k.run with
  | some r =>
    if r.job.ord = id then (if jLimit r.job.desc ≤ t - r.job.t0 then fin (s.endJob e r.job { r with edges := [] } (dlOutcome r.job.desc) t) else stay s)
    else match k.jobs.find? (fun j => decide (j.ord = id)) with
      | some j => if !j.desc.isEmpty && decide (jLimit j.desc ≤ t - j.t0) then fin (s.endJob e j (emptyRun j) (dlOutcome j.desc) t) else stay s
      | none => stay s
  | none => match k.jobs.find? (fun j => decide (j.ord = id)) with
      | some j => if !j.desc.isEmpty && decide (jLimit j.desc ≤ t - j.t0) then fin (s.endJob e j (emptyRun j) (dlOutcome j.desc) t) else stay s
      | none => stay s

/-- JOB_RESULT_VISIBLE (R685): the engine writes the oldest result record; with the record visible the DONE sluice is signalled. -/
def execJobResultVisible (e : TowId) (s : State) : Host.Outcome State Fault Refusal :=
  let k := s.tow e
  match k.done with
  | [] => stay s
  | x :: t =>
    if !(x.recs.isEmpty || s.portOpen x.cls e) || !(x.recs.all (fun w => s.clearPa x.cls e x.part w.1 w.2.length)) then stay s
    else
      let s := x.recs.foldl (fun s w => ((s.countLines x.cls e (lineCount w.1 w.2.length)).writePa x.part w.1 w.2 false).1) s
      let s := s.setTow e { k with done := t }
      fin (if x.sig then s.signal (233 + e) x.part x.num 1 else s)

/-- The jobs of a partition that begins powering down end with ABORTED (R686, R694). -/
def State.towAbort (s : State) (p : Nat) : State :=
  (List.range 4).foldl (fun s e =>
    let k := s.tow e
    let s := match k.run with
      | some r => if r.job.part = p then s.endJob e r.job { r with edges := [] } To.aborted (max k.now r.job.t0) else s
      | none => s
    (k.jobs.filter (fun j => decide (j.part = p))).foldl (fun s j => s.endJob e j (emptyRun j) To.aborted (max k.now j.t0)) s) s

/-- TOWDL_URGENCY (R539, Table 11-1): the elapsed fraction of the running deadline job's limit, in sixteenths. -/
def execTowdlUrgency (e : TowId) (t : Nat) (s : State) : Host.Outcome State Fault Refusal :=
  match (s.tow e).run with
  | none => stay s
  | some r =>
    if !(jDl r.job.desc) then stay s
    else
      let x := s.bwPort Cls.towdl e
      let x := { x with fill := Nat.min ((t - r.job.t0) * 16 / max 1 (jLimit r.job.desc)) 16 }
      fin (s.setBwPort Cls.towdl e { x with urg := s.newUrg Cls.towdl e x })

end Sys2Proof.Machine
end

