-- ==== Sys2Proof/Machine/Reset.lean ====
section
/-! DEFINITION. What resets and power states do to a core, a partition, a link and the chip (16_startup_resets_and_states.md Tables 16-2, 16-3
and 16-5; R14, R329 to R338, R758 to R768). -/

namespace Sys2Proof.Machine

/-! ### Register fields by letter (R14) -/

/-- Every field of the part. -/
def allFields : List Fld :=
  Blk.fields .klk ++ Blk.fields .rsv ++ Blk.fields .weir ++ Blk.fields .acc ++ Blk.fields .swg ++ Blk.fields .seam ++ Blk.fields .core
    ++ Blk.fields .spd ++ Blk.fields .dma ++ Blk.fields .mc ++ Blk.fields .mcMove ++ Blk.fields .bwr ++ Blk.fields .slc ++ Blk.fields .tow
    ++ Blk.fields .cmd ++ Blk.fields .part ++ Blk.fields .kpr ++ Blk.fields .dbg

/-- The numbers of the fields that pass a test. -/
def fieldNos (pick : FieldSpec → Bool) : List Nat := (allFields.filter (fun f => pick f.spec)).map (fun f => f.ctorIdx)

/-- Returns to their Reset values the copies of the listed fields whose (instance, index) passes. -/
def State.clearRegs (s : State) (fs : List Nat) (pick : Nat → Nat → Bool) : State :=
  { s with regs := tabKeep (fun k => !(fs.contains (k / 8388608) && pick (k / 32768 % 256) (k % 32768))) s.regs }

/-- The blocks of a core (Table 19-2). -/
def Blk.ofCore : Blk → Bool
  | .acc => true
  | .swg => true
  | .seam => true
  | .core => true
  | .spd => true
  | .dma => true
  | .dbg => true
  | _ => false

/-- The fields of a core that a K reset clears, and those that a T reset clears. -/
def coreK : List Nat := fieldNos (fun f => f.blk.ofCore && f.clr.k)
def coreT : List Nat := fieldNos (fun f => f.blk.ofCore && f.clr.t)

/-- The queue registers, which C2 keeps (Table 16-5). -/
def queueFields : List Nat :=
  [Fld.qdEn, .qdBase, .qdCells, .qdGen, .qdLendEn, .qdLendCore, .qdLendQ, .qdLendMin, .qdFlight, .qdHead, .qdTail, .qdDepth, .qdDropped, .qsEn,
   .qsMode, .qsTchip, .qsTcore, .qsTq, .qsQuota, .qsCredits, .qsFlight, .qsTorn, .qgMember, .coreQlast].map (fun f => f.ctorIdx)

/-! ### Cores -/

/-- What a K reset leaves of a core beside its registers: the scratchpad and its pairs, the program store, descriptor slots, microcode, trace
and error times; everything else is as after reset, in C1 (R761). -/
def Core.afterK (c : Core) : Core :=
  { pstore := c.pstore, psGen := c.psGen, desc := c.desc, dsGen := c.dsGen, ucode := c.ucode, ucGen := c.ucGen, zeroed := c.zeroed, spd := c.spd, spdPsn := c.spdPsn,
    pairRun := c.pairRun, pairNext := c.pairNext, pairReq := c.pairReq, pairAct := c.pairAct, scrubRow := c.scrubRow, scrubWb := c.scrubWb, ueTimes := c.ueTimes,
    ceTimes := c.ceTimes, trace := c.trace, nextId := c.nextId, corrected := c.corrected, cstate := 1 }

/-- What a T or C reset leaves: every pair is ON and holds zero as well (Table 07-5). -/
def Core.afterT (c : Core) : Core :=
  { c.afterK with spd := [], spdPsn := [], pairRun := [], pairNext := [], pairAct := 0xFFFF, scrubRow := 0, scrubWb := none }

/-- The program store, descriptor slots and microcode words become undefined (R768, Table 16-5). -/
def Core.loseStores (c : Core) : Core :=
  { c with pstore := [], psGen := c.psGen + 1, desc := [], dsGen := c.dsGen + 1, ucode := [], ucGen := c.ucGen + 1, zeroed := false }

/-- A flush of each enabled queue of a core (R761). -/
def State.flushAll (s : State) (u : Nat) : State :=
  (List.range 16).foldl (fun s q => if s.reg .qdEn u q = 1 then s.flushQueue u q else s) s

/-- A core's task ends at once, with what it started (a fence or a loss of power stops the arrays, R796): its transfers are forgotten. -/
def State.killTask (s : State) (u : Nat) : State :=
  let s := if (s.core u).stopping || !(s.core u).tasked then s else s.stopTask u
  let s := s.setCore u { s.core u with xfers := [], heldMma := [], posted := [], sb := [], qFeed := [], qDrain := [], qDma := [], qFront := [] }
  if (s.core u).tasked then s.endTask u else s

/-- A reset of a core reaches its island: it is at level 0 until its next grant (R908). -/
def State.ungrantCore (s : State) (u : Nat) : State := if u < 128 then s.ungrant (fun i => decide (i = u)) else s

/-- The K fields of a core return to their Reset values (R761). -/
def State.coreClearK (s : State) (u : Nat) : State :=
  ((s.clearRegs coreK (fun i _ => decide (i = u))).setCore u (s.core u).afterK).ungrantCore u

/-- The T fields of a core return to their Reset values, with its scratchpad (Table 07-5). -/
def State.coreClearT (s : State) (u : Nat) : State :=
  ((s.clearRegs coreT (fun i _ => decide (i = u))).setCore u (s.core u).afterT).ungrantCore u

/-- Every pair of a core that is ON, by pair number. -/
def Core.onPairs (c : Core) : List Nat := (List.range 8).filter (fun p => decide (bits c.pairAct (2 * p) 2 = 3))

/-- Sets the state of listed pairs, both asked and in force. -/
def State.putPairs (s : State) (u : Nat) (l : List Nat) (st : Nat) : State :=
  l.foldl (fun s p =>
    let s := s.setReg .spdPairState u 0 (putBits (s.reg .spdPairState u 0) (2 * p) 2 st)
    s.setCore u { s.core u with pairAct := putBits (s.core u).pairAct (2 * p) 2 st }) s

/-- C2 (R332, R350): the ON pairs go to RETAIN; a scrub write-back that waits is dropped. -/
def State.enterC2 (s : State) (u : Nat) : State :=
  let on := (s.core u).onPairs
  let s := (s.putPairs u on 1).dropBallast u
  s.setCore u { s.core u with cstate := 2, cReq := none, scrubWb := none, c2Pairs := on.foldl (fun m p => m + 2 ^ p) 0 }

/-- C3 (R333): every pair goes OFF. -/
def State.enterC3 (s : State) (u : Nat) : State :=
  let s := (s.putPairs u (List.range 8) 0).dropBallast u
  s.setCore u { s.core u with cstate := 3, cReq := none, scrubWb := none, c2Pairs := 0, spd := [], spdPsn := [], pairRun := [], pairNext := [] }

/-- Leaving C2 (R332, R767): the pairs that C2 put in RETAIN are ON again; queue registers stay; other core fields hold their Reset values. -/
def State.leaveC2 (s : State) (u : Nat) : State :=
  let c := s.core u
  let back := onesOf 8 c.c2Pairs
  let ps := s.reg .spdPairState u 0
  let s := s.clearRegs (coreT.filter (fun f => !(queueFields.contains f))) (fun i _ => decide (i = u))
  let s := s.setReg .spdPairState u 0 ps
  let s := s.setCore u { c.afterK with cstate := 0, items := c.items, pushers := c.pushers, dealCr := c.dealCr, dealPos := c.dealPos,
                                       sendGen := c.sendGen, resync := c.resync, barge := c.barge }
  s.putPairs u back 3

/-- Leaving C3 (R329, R768): every pair is ON and holds zero, the stores are undefined, every other core field holds its Reset value. -/
def State.leaveC3 (s : State) (u : Nat) : State :=
  let s := s.coreClearT u
  s.setCore u { (s.core u).loseStores with cstate := 0 }

/-- A core goes to C0 on a launch, CSTATE 0 or PART_START, or from C1 on a request (Table 16-3, R766). A fenced core stays. -/
def State.toC0 (s : State) (u : Nat) : State :=
  if s.fenced u then s
  else match (s.core u).cstate with
    | 0 => s.setCore u { s.core u with cReq := none }
    | 1 => s.setCore u { s.core u with cstate := 0, cReq := none }
    | 2 => s.leaveC2 u
    | _ => s.leaveC3 u

/-- Enters a power state from C0 or a shallower state (Table 16-3). -/
def State.enterC (s : State) (u st : Nat) : State :=
  if st = 1 then s.setCore u { s.core u with cstate := 1, cReq := none }
  else if st = 2 then s.enterC2 u
  else s.enterC3 u

/-- A core is idle and complete enough to leave C0 (R765). -/
def Core.idle (c : Core) : Bool :=
  !c.tasked && c.quiet && c.qFeed.isEmpty && c.qDrain.isEmpty && c.qDma.isEmpty && c.qFront.isEmpty && c.pairRun.isEmpty

/-- CSTATE_ENTRY (R765, Table 16-3): a pending request is carried out. While the Weir gives the core ballast it stays in C0 and the loss of the
request is recorded (Table 02-4 code 0x3). The YZ2-KB block reports the state on STAT (Table 20-7). -/
def execCstateEntry (u : CoreId) (s : State) : Host.Outcome State Fault Refusal :=
  let c := s.core u
  match c.cReq with
  | none => stay s
  | some st =>
    if s.fenced u then stay s
    else if st ≤ c.cstate then fin (s.setCore u { c with cReq := none })
    else if !c.idle then stay s
    else if u.val = 128 then (if s.kb.ballast ≠ 0 then stay s else fin ((s.enterC u st).emit (.kbStat (2 + st * 16))))
    else if tabGet 0 u.val s.pow.ballast ≠ 0 then fin (s.policyLoss 3 (s.partOf u))
    else fin (s.enterC u st)

/-- A request reaches a core in C1 (R50, Table 16-3): its clock restarts. -/
def execIslandWake (u : CoreId) (s : State) : Host.Outcome State Fault Refusal :=
  if (s.core u).cstate = 1 ∧ s.fenced u = false then fin (s.toC0 u) else stay s

/-- One REWRITE (Table 09-3, R467, R477): 40 bits of a new value. Of a queue descriptor they are word 0 bits [63:24], of which the lend fields are
written; of a send entry word 0 bits [39:0], a QUOTA that is not legal being kept (R10); of a group member its 23 bits. A core in C1 wakes, one
that is in C2, in C3 or fenced answers ISLAND_OFF (R50, R51, R845). -/
def State.rewriteReg (s : State) (e : Nat) : State :=
  let u := bits e 8 7
  let i := bits e 15 4
  let v := bits e 24 40
  if s.islandOff u then s.gevent Gs.islandOff 0x11 u u 18
  else
  let s := if (s.core u).cstate = 1 then s.toC0 u else s
  match bits e 19 2 with
  | 0 => s.setLend u i (bits v 11 1) (bits v 12 7) (bits v 19 4) (bits v 23 13) i 18
  | 1 =>
    let s := ((s.setReg .qsEn u i (bits v 0 1)).setReg .qsMode u i (bits v 1 1)).setReg .qsTchip u i (bits v 2 8)
    let s := (s.setReg .qsTcore u i (bits v 10 7)).setReg .qsTq u i (bits v 17 4)
    if 1 ≤ bits v 21 13 ∧ bits v 21 13 ≤ 4096 then s.setQuota u i (bits v 21 13) else s.gevent Gs.illegal 0x11 u i 18
  | 2 => s.setReg .qgMember u (8 * (i % 4) + bits e 21 3) (bits v 0 23)
  | _ => s

/-- REWRITE (R467): message `k` carries one rewrite of a fallback map for a core of this chip. -/
def execRewrite (k : Nat) (s : State) : Host.Outcome State Fault Refusal :=
  match s.arrival .rewrite k with
  | some m => fin ((s.take k).rewriteReg m.arg)
  | none => stay s

/-- The core that a message concerns: its destination, or for a REWRITE the core whose register it names. -/
def Msg.coreOf (m : Msg) : Nat := if m.op = .rewrite then bits m.arg 8 7 else m.dst

/-- ISLAND_OFF (R51, R845): message `k`, the next of its flow (R26) and bound for a core that is in C2 or C3 or is fenced, is answered with the error
response. DESIGN CHOICE (log 106): R51 does not say what the response does at the producer of an item, nor Table 19-5 that a request other than a
register access sets GSTATUS.ISLAND_OFF; the model returns the item's credits, and records the event for each. -/
def execIslandOff (u : CoreId) (k : Nat) (s : State) : Host.Outcome State Fault Refusal :=
  match (s.net[k]?).bind (fun m => s.arrival m.op k) with
  | some m =>
    if m.coreOf = u.val ∧ s.islandOff u = true ∧ m.op ∈ [MsgOp.item, .credit, .flush, .rewrite] then
      let s := s.take k
      let s := if m.op = .item then s.returnCredit m.dst m.dsub m.srcChip m.src m.sub (cellsOf (m.data.length / 8)) else s
      fin (s.coreEvent u Gs.islandOff 0x11 u 18)
    else stay s
  | none => stay s

/-! ### Partitions -/

/-- Sets a partition's state, which its function shows too (Table 15-8). -/
def State.setPartState (s : State) (p st : Nat) : State := (s.setReg .partState 0 p st).setReg .fnPartState p 0 st

/-- The sluices of a partition's range. -/
def State.sluicesOf (s : State) (p : Nat) : List Nat :=
  (List.range (s.reg .slcPartSize 0 p)).map (fun i => s.reg .slcPartBase 0 p + i)

/-- Sluices return to zero. -/
def State.zeroSluices (s : State) (l : List Nat) : State :=
  let s := l.foldl (fun s i => (s.setCount i 0).setCtl i 0) s
  ({ s with waiters := s.waiters.filter (fun w => !(l.contains w.num)) }).countWaiters

/-- Writes a partition's Towpath ring registers from its creation values (Table 15-9, R760). -/
def State.writeRings (s : State) (p : Nat) : State :=
  let x := s.part p
  (onesOf 4 x.towMask).foldl (fun s e =>
    let s := (s.setReg .towRingSizeLog2 e p x.towLog2).setReg .towRingBase e p (x.towBase + e * 128 * 2 ^ x.towLog2)
    ((s.setReg .towRingDoorbell e p (x.towDb + e)).setReg .towRingTaken e p 0).setReg .towRingEn e p 1) s

/-- Disables a partition's Towpath rings and returns their fields to Reset. -/
def State.clearRings (s : State) (p : Nat) : State :=
  (List.range 4).foldl (fun s e =>
    let s := ((s.setReg .towRingEn e p 0).setReg .towRingSizeLog2 e p 0).setReg .towRingDoorbell e p 0
    (s.setReg .towRingBase e p 0).setReg .towRingTaken e p 0) s

/-- The T reset of a partition that is powered down, and the rewrite of its creation values (R760): it ends ACTIVE, its cores in C1. -/
def State.partReset (s : State) (p : Nat) : State :=
  let x := s.part p
  let s := (s.coresOf p).foldl (fun s u => s.coreClearT u) s
  let s := s.zeroSluices (s.sluicesOf p)
  let s := (s.clearRings p).writeRings p
  let s := ((s.setReg .rsvShareWeight 0 p x.share).setReg .slcPartFlight 0 p x.slcFlight).setReg .slcPartEn 0 p 1
  (s.setPart p { x with grace := false, retain := false }).setPartState p 1

/-- Powering down begins (Table 15-10, R686, R734): tasks halt, packets that have started complete with PART_DOWN, waiters on the partition's
sluices are woken with PART_DOWN, and its Towpath jobs are aborted. -/
def State.beginStop (s : State) (p : Nat) (retain : Bool) : State :=
  let s := (s.setPart p { s.part p with grace := false, retain := retain }).setPartState p 2
  let s := (s.coresOf p).foldl (fun s u => s.haltTask u St.partDown) s
  let s := { s with waiters := s.waiters.filter (fun w => !(decide (w.core = 184) && decide (w.chip = s.chip) && decide (w.part = p))) }
  let s := s.finishAll (fun k => k.started && decide (k.part = p) && decide (0x101 ≤ k.opcode) && decide (k.opcode ≤ 0x112)) St.partDown
  let gone := s.waiters.filter (fun w => s.inSluices p w.num && !w.taken)
  let s := { s with waiters := s.waiters.filter (fun w => !(s.inSluices p w.num && !w.taken)) }
  (gone.foldl (fun s w => s.sendWake w St.partDown) s).countWaiters.towAbort p

/-! ### Links -/

/-- The fields that an L reset clears. -/
def linkL : List Nat := fieldNos (fun f => f.clr.l)

/-- A LINK reset (R762): the link leaves UP, its L fields return to Reset, and it trains from step 1. What it had not delivered still waits for
HANDOVER (R637, R638). -/
def State.linkReset (s : State) (l : Nat) : State :=
  let s := s.leaveUp l 0
  let k := s.link l
  let s := s.clearRegs linkL (fun _ j => decide (j = l))
  ((s.setLink l { k with attempts := 0, retryWait := false, violT := [], recordT := none }).trainStart l).ungrant (fun i => decide (i = 208 + l))

/-! ### The chip -/

/-- The Reservoir, the Weir and pacing at their Reset values, with the fuses (Tables 02-5 to 02-9). -/
def powReset (fu : Fuses) : Pow :=
  { p4 := 4 * fu.pStaticMw, p4Next := 4 * fu.pStaticMw, close4 := 4 * fu.pStaticMw, account := fu.account * 200000000, statMw := fu.pStaticMw }

/-- The same, the islands being held at their MIN while THERM_N is asserted (R888). -/
def State.resetPow (s : State) : Pow := { powReset s.fuses with heldMin := s.env.thermN }

/-- The fields that a C reset leaves: those without the letter C, and the registers of the YZ2-KB block, a block of its own. -/
def keptByC : List Nat := fieldNos (fun f => !f.clr.c)

/-- The fields that no reset clears (the slot straps among them). -/
def keptByP : List Nat := fieldNos (fun f => !f.clr.p)

/-- The cores after a chip-wide reset: a YZ2-KB block is left alone; with `lose` the stores are undefined (Table 16-5). -/
def State.resetCores (s : State) (lose : Bool) : List (Nat × Core) :=
  (List.range 129).foldl (fun t u =>
    let c := s.core u
    tabSet {} u (if u = 128 then c else if lose then c.afterT.loseStores else c.afterT) t) []

/-- The Towpath engines after a chip-wide reset. -/
def State.resetTows (s : State) (lose : Bool) : List (Nat × Tow) :=
  (List.range 4).foldl (fun t e =>
    let k := s.tow e
    tabSet {} e (if lose then { progGen := k.progGen + 1 } else { prog := k.prog, progGen := k.progGen }) t) []

/-- What the record slots hold after a reset, which clears none of them (Table 19-6). -/
def State.keptRecords (s : State) : List (Nat × Nat) :=
  s.errs.foldl (fun t r => tabInsert r.slot (ofBytes (r.toBytes s.chip)) (tabErase r.slot t)) s.errOld

/-- The copies that a reset keeps: the block's own, and the fields listed. -/
def State.keepRegs (s : State) (fs : List Nat) : List (Nat × Nat) :=
  tabKeep (fun k => fs.contains (k / 8388608) || (decide (k / 32768 % 256 = 128) && coreT.contains (k / 8388608))
    || [Fld.kbChipNum.ctorIdx, Fld.kbCoreNum.ctorIdx, Fld.kbPart.ctorIdx, Fld.kbSlcBase.ctorIdx, Fld.kbSlcSize.ctorIdx, Fld.kbIsland.ctorIdx,
        Fld.kbProtoFault.ctorIdx, Fld.kbPort.ctorIdx, Fld.kbEpochLost.ctorIdx].contains (k / 8388608)) s.regs

/-- The die after a C reset (Tables 16-2, 16-5): start-up begins again; memory contents, program stores and the fuses stay. -/
def State.chipReset (s : State) (keepMem : Bool) : State :=
  { s with
    regs := s.keepRegs keptByC
    env := { resetLow := s.env.resetLow, pwrEn := s.env.pwrEn, pwrGood := s.env.pwrGood, thermN := s.env.thermN,
             thermTrip := s.env.thermTrip, selfRefresh := true, keptMem := keepMem, tempC := s.env.tempC, pmbus := s.env.pmbus }
    pend := [], capt := [], old := [], pow := s.resetPow, cores := s.resetCores false, ms := {}, net := [], waiters := [], links := [],
    tows := s.resetTows false, host := {}, errs := [], errOrd := 0, errOld := s.keptRecords, corr := [], inbox := [] }

/-- The module after a P reset (Tables 16-2, 16-5): everything at its Reset value; program stores, descriptors, microcode and Towpath programs
are undefined; external memory has lost its contents and will be zero-filled (R755). -/
def State.porReset (s : State) : State :=
  { s with
    regs := s.keepRegs keptByP
    env := { resetLow := s.env.resetLow, pwrEn := s.env.pwrEn, pwrGood := s.env.pwrGood, thermN := s.env.thermN, thermTrip := s.env.thermTrip,
             tempC := s.env.tempC }
    pend := [], capt := [], old := [], pow := s.resetPow, cores := s.resetCores true, mem := {}, ms := {}, net := [], waiters := [],
    links := [], tows := s.resetTows true, host := {}, errs := [], errOrd := 0, errOld := s.keptRecords, corr := [], inbox := [] }

end Sys2Proof.Machine
end

