-- ==== Sys2Proof/Machine/Host.lean ====
section
/-! DEFINITION. Rings, completion entries, apertures and function resets (15_host_partitions_and_commands.md R696 to R707, R737, R738, R763), and
the packets that have no unit of their own: NOP and QUERY. -/

namespace Sys2Proof.Machine

/-! ### Memory accesses of the command processors and the Keeper -/

/-- The MGMT port of a function's server: the command processor of a VF's partition, or the Keeper (Table 11-1). Addresses of a VF are
partition addresses, those of the PF device addresses (Table 15-11). -/
def State.canAccess (s : State) (cls port p pa n : Nat) : Bool := s.portOpen cls port && s.clearPa cls port p pa n

/-- An access whose time has not come: it waits, and where a cache owns one of its lines the directory takes that line back (R526). -/
def State.awaitAccess (s : State) (cls port p pa n : Nat) : Host.Outcome State Fault Refusal :=
  if s.portOpen cls port then s.await p pa n else stay s

/-- A read made by a server: the state with its lines counted and a failed translation noted, the bytes, whether one was poisoned, and the
status. -/
def State.serverRead (s : State) (cls port p pa n : Nat) : State × Bytes × Bool × Nat :=
  let r := s.readPa p pa n
  let s := s.countLines cls port (lineCount pa n)
  (if r.2.2 = St.dmaXlate then s.noteXlate p else s, r.1, r.2.1, r.2.2)

/-- A write made by a server. -/
def State.serverWrite (s : State) (cls port p pa : Nat) (l : Bytes) (poison : Bool) : State × Nat :=
  (s.countLines cls port (lineCount pa l.length)).writePa p pa l poison

/-! ### Submission rings -/

/-- The bytes of slot `i` of a ring held in device memory, and the status of the read. -/
def State.slotRead (s : State) (f r i : Nat) : Bytes × Nat :=
  let size := 2 ^ s.reg .cmdSqSizeLog2 f r
  let x := s.readPa f (64 * s.reg .cmdSqBase f r + 64 * (i % size)) 64
  (x.1, x.2.2)

/-- `n` slots from the head. -/
def State.slotsRead (s : State) (f r n : Nat) : Bytes × Nat :=
  (List.range n).foldl (fun (acc : Bytes × Nat) i =>
    let x := s.slotRead f r (s.reg .cmdSqHead f r + i)
    (acc.1 ++ x.1, if acc.2 = 0 then x.2 else acc.2)) ([], 0)

/-- The address of slot `i` of a ring held in device memory. -/
def State.slotAddr (s : State) (f r i : Nat) : Nat := 64 * s.reg .cmdSqBase f r + 64 * (i % 2 ^ s.reg .cmdSqSizeLog2 f r)

/-- A slot may be read now. -/
def State.slotClear (s : State) (f r i : Nat) : Bool := s.canAccess Cls.mgmt f f (s.slotAddr f r i) 64

/-- A completion ring is full (R705). -/
def State.cqFull (s : State) (f r : Nat) : Bool := (s.cq f r).full

/-- The packet that `bytes` spell is taken from a ring whose head has `avail` slots (R701, R702): the head moves past it and it starts in ring order;
a bad LENGTH completes with PKT_BAD and the head moves by one slot. -/
def State.takePacket (s : State) (f r avail : Nat) (bytes : Bytes) : State :=
  let size := 2 ^ s.reg .cmdSqSizeLog2 f r
  let head := s.reg .cmdSqHead f r
  let len := field bytes 4 2
  let n := ceilDiv len 64
  let p : Packet := { pid := s.host.nextPid, fn := f, ring := r, bytes := sliceBytes bytes 0 (if len = 0 then 64 else len), started := false }
  let s := { s with host := { s.host with nextPid := s.host.nextPid + 1 } }
  if len = 0 ∨ len % 16 ≠ 0 ∨ 4096 < len ∨ avail < n then
    (s.setReg .cmdSqHead f r ((head + 1) % size)).postFree p St.pktBad
  else
    let s := s.setReg .cmdSqHead f r ((head + n) % size)
    ({ s with host := { s.host with packets := s.host.packets ++ [p] } }).startPkts f r

/-- PACKET_FETCH (R701 to R705): the packet at a ring's head. `host.arg` holds its slots where the ring is in host memory, none where that read failed;
`host.errs` the lines of device memory read with errors. A failed read sets FETCH_ERR and leaves the head. -/
def execPacketFetch (fn : FnId) (ring : RingId) (host : Met (Option Bytes) MemErr) (s : State) : Host.Outcome State Fault Refusal :=
  let f := fn.val
  let r := ring.val
  let size := 2 ^ s.reg .cmdSqSizeLog2 f r
  let head := s.reg .cmdSqHead f r
  let avail := (s.reg .cmdSqTail f r + size - head) % size
  if s.reg .cmdSqEn f r = 0 ∨ avail = 0 ∨ s.cqFull f (s.reg .cmdSqCq f r) = true then stay s
  else if s.reg .cmdSqLoc f r = 0 then
    match host.arg with
    | none => fin (s.setReg .fnFetchErr f 0 1)
    | some b => fin (s.takePacket f r avail (sliceBytes b 0 (64 * min avail 64)))
  else
    let h := s.slotRead f r head
    let n := min avail (max 1 (min 64 (ceilDiv (field h.1 4 2) 64)))
    match (List.range n).find? (fun i => !(s.slotClear f r (head + i))) with
    | some i => s.awaitAccess Cls.mgmt f f (s.slotAddr f r (head + i)) 64
    | none =>
      let s := (List.range n).foldl (fun s i => s.memErrs f (s.slotAddr f r (head + i)) 64 host.errs) s
      let x := s.slotsRead f r n
      let s := s.countLines Cls.mgmt f n
      if x.2 ≠ 0 then
        let s := if x.2 = St.dmaXlate then s.noteXlate f else s
        fin (s.setReg .fnFetchErr f 0 1)
      else fin (s.takePacket f r avail x.1)

/-! ### Completion rings -/

/-- The 32 bytes of a status entry (Table 15-4). -/
def State.statusBytes (s : State) (x : StatusRec) (phase : Nat) : Bytes :=
  toBytes 1 x.status ++ toBytes 1 (phase + 2 * b2n x.fast) ++ toBytes 2 x.tag ++ toBytes 2 x.opcode ++ toBytes 2 (s.reg .cmdSqHead x.fn x.ring)
    ++ toBytes 1 x.ring ++ toBytes 1 x.part ++ toBytes 2 (x.num % 256) ++ toBytes 4 0 ++ toBytes 8 x.r0 ++ toBytes 8 x.r1

/-- Sets or clears bit `r` of FN_STATUS.CQ_FULL. -/
def State.noteFull (s : State) (f r : Nat) (b : Bool) : State :=
  (s.setCq f r { s.cq f r with full := b }).setReg .fnCqFull f 0 (putBits (s.reg .fnCqFull f 0) r 1 (b2n b))

/-- The vector of a completion ring, covering the entries written so far (R706). -/
def State.cqInterrupt (s : State) (f r : Nat) : State :=
  (s.setCq f r { s.cq f r with count := 0 }).emit (.msix f (s.reg .cmdCqVector f r))

/-- One entry goes to the ring: CQ_TAIL advances, PHASE toggles at the wrap, and the vector is sent when COAL_N entries stand (R704 to R706). -/
def State.cqAdvance (s : State) (f r : Nat) : State :=
  let size := 2 ^ s.reg .cmdCqSizeLog2 f r
  let t := s.reg .cmdCqTail f r
  let t1 := (t + 1) % 65536
  let s := s.setReg .cmdCqTail f r t1
  let s := if t1 % size = 0 then s.setReg .cmdCqPhase f r (1 - s.reg .cmdCqPhase f r) else s
  let s := s.noteFull f r (decide ((t1 + 65536 - s.reg .cmdCqHead f r) % 65536 = size % 65536))
  let x := s.cq f r
  let s := s.setCq f r { x with count := x.count + 1 }
  if s.reg .cmdCqCoalN f r ≤ x.count + 1 then s.cqInterrupt f r else s

/-- STATUS_WRITE (R704, R705): the oldest status that a completion ring holds is written at CQ_TAIL. -/
def execStatusWrite (fn : FnId) (cq : RingId) (s : State) : Host.Outcome State Fault Refusal :=
  let f := fn.val
  let r := cq.val
  let x := s.cq f r
  match x.held with
  | [] => stay s
  | st :: rest =>
    if s.reg .cmdCqEn f r = 0 ∨ x.full = true then stay s
    else
      let size := 2 ^ s.reg .cmdCqSizeLog2 f r
      let a := 64 * s.reg .cmdCqBase f r + 32 * (s.reg .cmdCqTail f r % size)
      let b := s.statusBytes st (s.reg .cmdCqPhase f r)
      let s1 := s.setCq f r { x with held := rest }
      if s.reg .cmdCqLoc f r = 0 then fin ((s1.emit (.hostWrite a b false)).cqAdvance f r)
      else if !(s.canAccess Cls.mgmt f f a 32) then s.awaitAccess Cls.mgmt f f a 32
      else fin ((s1.serverWrite Cls.mgmt f f a b false).1.cqAdvance f r)

/-- COAL_TIMER (R706): COAL_US has passed since the oldest entry not yet signalled. -/
def execCoalTimer (fn : FnId) (cq : RingId) (s : State) : Host.Outcome State Fault Refusal :=
  if (s.cq fn cq).count = 0 then stay s else fin (s.cqInterrupt fn cq)

/-- CQ_STALL_TIMEOUT (R705): a completion ring has been full for 1 ms. -/
def execCqStallTimeout (fn : FnId) (cq : RingId) (s : State) : Host.Outcome State Fault Refusal :=
  if s.cqFull fn cq then fin (s.setReg .fnCqStall fn 0 (s.reg .fnCqStall fn 0 ||| 2 ^ cq.val)) else stay s

/-! ### Apertures (R697) -/

/-- The address that an aperture offset names, for `n` bytes inside the BAR (Table 15-2). -/
def State.apertureAddr (s : State) (f addr n : Nat) : Option Nat :=
  if addr + n ≤ (if f = 16 then 2 ^ 36 else 2 ^ 34) ∧ 0 < n ∧ n ≤ 4096 then some (s.reg .cmdAperture f 0 * 2 ^ 30 + addr) else none

/-- APERTURE_READ (R697, Table 17-2): lines that fail translation read 0xFF; poisoned data sets the EP bit. `n.errs` lists the lines read with errors. -/
def execApertureRead (fn : FnId) (addr : Nat) (n : Met Nat MemErr) (s : State) : Host.Outcome State Fault Refusal :=
  match s.apertureAddr fn addr n.arg with
  | none => stay s
  | some pa =>
    if !(s.canAccess Cls.host 0 fn pa n.arg) then s.awaitAccess Cls.host 0 fn pa n.arg
    else
      let x := (s.memErrs fn pa n.arg n.errs).serverRead Cls.host 0 fn pa n.arg
      let data := (linesOf pa n.arg).flatMap (fun l => if (s.xlate fn l.1 false).isSome then sliceBytes x.2.1 l.2.2 l.2.1 else List.replicate l.2.1 0xFF)
      let bad := (linesOf pa n.arg).any (fun l => (s.xlate fn l.1 false).isNone)
      let t := if bad then x.1.noteXlate fn else x.1
      fin (t.emit (.apertureData fn addr data x.2.2.1))

/-- APERTURE_WRITE (R697, Table 17-2): lines that fail translation are discarded; data with EP set is written poisoned and recorded. -/
def execApertureWrite (fn : FnId) (addr : Nat) (data : Bytes) (ep : Bool) (s : State) : Host.Outcome State Fault Refusal :=
  match s.apertureAddr fn addr data.length with
  | none => stay s
  | some pa =>
    if !(s.canAccess Cls.host 0 fn pa data.length) then s.awaitAccess Cls.host 0 fn pa data.length
    else
      let t := (s.serverWrite Cls.host 0 fn pa data ep).1
      fin (if ep then t.errRecord { cls := 1, source := 7, unit := fn, part := if fn.val < 16 then some fn.val else none, action := 1, addr := pa % 2 ^ 40 } else t)

/-! ### Function resets -/

/-- The fields of a function's CMD block but for PART_STATE, which shows the partition's state (R738). -/
def cmdFields : List Nat := fieldNos (fun f => decide (f.blk = .cmd)) |>.filter (fun n => decide (n ≠ Fld.fnPartState.ctorIdx))

/-- A function level reset of one function (R737). -/
def State.flrOne (s : State) (f : Nat) : State :=
  let s := s.clearRegs cmdFields (fun i _ => decide (i = f))
  { s with host := { s.host with
      packets := (s.host.packets.filter (fun p => !(decide (p.fn = f) && (!p.started || decide (p.wait = 4))))).map
        (fun p => if p.fn = f then { p with discard := true } else p)
      cqs := tabKeep (fun k => decide (k / 4 ≠ f)) s.host.cqs
      msix := tabKeep (fun k => decide (k / 64 ≠ f)) s.host.msix
      queried := tabKeep (fun k => decide (k ≠ f)) s.host.queried
      gens := tabKeep (fun k => decide (k / 16 ≠ f)) s.host.gens } }

/-- A function level reset; that of the PF reaches every VF (R738). -/
def State.flr (s : State) (f : Nat) : State := if f = 16 then (List.range 17).foldl (fun s n => s.flrOne n) s else s.flrOne f

/-- FUNCTION_LEVEL_RESET (R737, R738). -/
def execFunctionLevelReset (fn : FnId) (s : State) : Host.Outcome State Fault Refusal := fin (s.flr fn)

/-- PCIE_HOT_RESET (R763): a function level reset of the PF; the PCIe link retrains. -/
def execPcieHotReset (s : State) : Host.Outcome State Fault Refusal := fin ((s.flr 16).emit .pcieRetrain)

/-! ### NOP and QUERY -/

/-- NOP (Table 15-5). -/
def execPacketNop (pid : Nat) (s : State) : Host.Outcome State Fault Refusal :=
  match s.ready pid 0 with
  | some p => fin (s.finish p 0)
  | none => stay s

/-- A QUERY of SEL `sel`, whose results the manual does not lay out. -/
def State.query (s : State) (pid sel : Nat) : Host.Outcome State Fault Refusal :=
  match s.ready pid 2 with
  | some p => if p.get 0x10 1 = sel then fin (s.finish p 0) else stay s
  | none => stay s

/-- QUERY of the partition. -/
def execQueryPartition (pid : Nat) (s : State) : Host.Outcome State Fault Refusal := s.query pid 0

/-- QUERY of the cores. -/
def execQueryCores (pid : Nat) (s : State) : Host.Outcome State Fault Refusal := s.query pid 1

/-- QUERY of the links. -/
def execQueryLinks (pid : Nat) (s : State) : Host.Outcome State Fault Refusal := s.query pid 2

/-- QUERY of the topology. -/
def execQueryTopology (pid : Nat) (s : State) : Host.Outcome State Fault Refusal := s.query pid 3

/-- QUERY_ERRORS (R794): up to 64 records written since the function's previous SEL 4 query, a VF's own alone, go to the host buffer. RESULT0 counts
them, RESULT1 those dropped or replaced unread. -/
def execQueryErrors (pid : Nat) (s : State) : Host.Outcome State Fault Refusal :=
  match s.ready pid 2 with
  | none => stay s
  | some p =>
    if p.get 0x10 1 ≠ 4 then stay s
    else
      let from_ := tabGet 0 p.fn s.host.queried
      let new := s.errs.filter (fun r => decide (from_ ≤ r.ord))
      let order := new.foldl (fun l r => (l.filter (fun x => decide (x.ord < r.ord))) ++ [r] ++ l.filter (fun x => decide (r.ord < x.ord))) []
      let mine := order.filter (fun r => decide (p.fn = 16) || decide (r.part = some p.fn))
      let take := mine.take 64
      let upto := if mine.length ≤ 64 then s.errOrd else (take.getLast?.map (fun r => r.ord + 1)).getD s.errOrd
      let lost := (upto - from_) - (order.filter (fun r => decide (r.ord < upto))).length
      let s := { s with host := { s.host with queried := tabSet 0 p.fn upto s.host.queried } }
      let s := if take.isEmpty then s else s.emit (.hostWrite (p.get 0x18 8) (take.flatMap (fun r => r.toBytes s.chip)) false)
      fin (s.finishWith p 0 0 take.length lost)

end Sys2Proof.Machine
end

