-- ==== Sys2Proof/Machine/Partition.lean ====
section
/-! DEFINITION. Partitions (15_host_partitions_and_commands.md R725 to R736): creation, the translator table, powering down, starting and
destruction; and the resets of cores, partitions, links and the chip with their sources (16_startup_resets_and_states.md R758 to R764, R780). -/

namespace Sys2Proof.Machine

/-! ### The translator table (R727) -/

/-- The address of a partition's level-1 table, and of its `k`-th level-2 table. -/
def State.l1Base (s : State) (p : Nat) : Nat := 8192 * s.reg .partXlateBase 0 p
def State.l2Table (s : State) (p k : Nat) : Nat := s.l1Base p + 8192 + 4096 * k

/-- Reads and writes an 8-byte entry. -/
def State.ent (s : State) (a : Nat) : Nat := s.memNum a 8
def State.setEnt (s : State) (a v : Nat) : State := s.memWrite a (toBytes 8 v) false

/-- A level-2 table for the GiB of partition address `pa`, made where there is none: of zeros, or of the pages of the 1 GiB entry that it
replaces. Answers the table's address. -/
def State.level2 (s : State) (p pa : Nat) : State × Nat :=
  let a := s.l1Base p + 8 * bits pa 30 10
  let e := s.ent a
  if e.testBit 0 && !(e.testBit 1) then (s, 4096 * bits e 12 28)
  else
    let t := s.l2Table p (s.part p).tables
    let s := s.setPart p { s.part p with tables := (s.part p).tables + 1 }
    let body : Bytes := if e.testBit 0 then
        (List.range 512).flatMap (fun i => toBytes 8 (1 + 4 * b2n (e.testBit 2) + (512 * bits e 30 10 + i) * 2 ^ 21))
      else List.replicate 4096 0
    ((s.memWrite t body false).setEnt a (t + 1), t)

/-- Maps one 2 MiB page, or removes it (`da` none). -/
def State.map2M (s : State) (p pa : Nat) (da : Option Nat) (ro : Bool) : State :=
  let e := s.ent (s.l1Base p + 8 * bits pa 30 10)
  if da.isNone && !(e.testBit 0) then s
  else
    let r := s.level2 p pa
    r.1.setEnt (r.2 + 8 * bits pa 21 9) (match da with
      | some d => 1 + 4 * b2n ro + d / 2 ^ 21 * 2 ^ 21
      | none => 0)

/-- Maps `n` pages from (pa, da), with 1 GiB entries where both are 1 GiB-aligned and a whole GiB is left (R726); `fuel` bounds the entries. -/
def State.mapRun (s : State) (p : Nat) : Nat → Nat → Nat → Nat → State
  | 0, _, _, _ => s
  | fuel + 1, pa, da, n =>
    if n = 0 then s
    else if pa % 2 ^ 30 = 0 ∧ da % 2 ^ 30 = 0 ∧ 512 ≤ n then
      (s.setEnt (s.l1Base p + 8 * bits pa 30 10) (3 + da / 2 ^ 30 * 2 ^ 30)).mapRun p fuel (pa + 2 ^ 30) (da + 2 ^ 30) (n - 512)
    else (s.map2M p pa (some da) false).mapRun p fuel (pa + 2 ^ 21) (da + 2 ^ 21) (n - 1)

/-! ### PART_CREATE -/

/-- The windows of a PART_CREATE payload: (device base, bytes). -/
def Packet.wins (p : Packet) : List (Nat × Nat) := (List.range (p.get 0x32 1)).map (fun w => (p.get (0x40 + 16 * w) 8, p.get (0x48 + 16 * w) 8))

/-- The partition addresses of windows (R726): (partition address, device base, bytes). -/
def layoutWins : Nat → Nat → List (Nat × Nat) → List (Nat × Nat × Nat)
  | _, _, [] => []
  | p1, p2, (b, n) :: t =>
    if b < tier2Base then (p1, b, n) :: layoutWins (p1 + n) p2 t else (p2, b, n) :: layoutWins p1 (p2 + n) t

/-- The windows in force of the partitions that are not FREE, `p` aside. -/
def State.takenWins (s : State) (p : Nat) : List (Nat × Nat) :=
  ((List.range 16).filter (fun q => decide (q ≠ p) && decide (s.reg .partState 0 q ≠ 0))).flatMap (fun q =>
    ((List.range 8).filter (fun w => decide (s.reg .winV 0 (8 * q + w) = 1))).map (fun w =>
      (s.reg .winBase 0 (8 * q + w) * 2 ^ 21, (s.reg .winPages 0 (8 * q + w) + 1) * 2 ^ 21)))

def overlaps (a b : Nat × Nat) : Bool := decide (a.1 < b.1 + b.2) && decide (b.1 < a.1 + a.2)

/-- Some two entries of a list overlap. -/
def anyOverlap : List (Nat × Nat) → Bool
  | [] => false
  | a :: t => t.any (fun b => overlaps a b) || anyOverlap t

/-- A window is unaligned, or touches the control region. -/
def winBad (w : Nat × Nat) : Bool :=
  decide (w.1 % 2 ^ 21 ≠ 0) || decide (w.2 % 2 ^ 21 ≠ 0) || overlaps w (ctrlBase, tier2Base - ctrlBase)

/-- The reserves of one channel that the partitions that are not FREE hold, `p` aside. -/
def State.reserves (s : State) (p : Nat) (f : Fld) : Nat :=
  sumOf ((List.range 16).filter (fun q => decide (q ≠ p) && decide (s.reg .partState 0 q ≠ 0))) (fun q => s.reg f 0 q)

/-- The Towpath rings of a payload lie inside the addresses that its windows map. -/
def ringsInside (k : Packet) : Bool :=
  let l := layoutWins 0 tier2Base k.wins
  let top1 := sumOf (l.filter (fun x => decide (x.1 < tier2Base))) (fun x => x.2.2)
  let top2 := tier2Base + sumOf (l.filter (fun x => decide (tier2Base ≤ x.1))) (fun x => x.2.2)
  let size := 128 * 2 ^ k.get 0x25 1
  (onesOf 4 (k.get 0x24 1)).all (fun e =>
    let a := k.get 0x28 8 + e * size
    decide (a + size ≤ top1) || (decide (tier2Base ≤ a) && decide (a + size ≤ top2)))

/-- The PART_RES cases of R725. -/
def State.createRes (s : State) (p : Nat) (k : Packet) : Bool :=
  let quads := k.get 0x10 4
  let lo := k.get 0x16 2
  let n := k.get 0x18 4
  let lq := k.get 0x20 4
  let db := k.get 0x30 2
  (List.range 16).any (fun q => decide (q ≠ p) && decide (s.reg .partState 0 q ≠ 0) && decide (s.reg .partQuads 0 q &&& quads ≠ 0))
    || k.wins.any winBad || anyOverlap k.wins || k.wins.any (fun w => (s.takenWins p).any (fun x => overlaps w x))
    || (List.range 16).any (fun q => decide (q ≠ p) && decide (s.reg .slcPartEn 0 q = 1)
        && overlaps (lo, n) (s.reg .slcPartBase 0 q, s.reg .slcPartSize 0 q) && decide (0 < n) && decide (0 < s.reg .slcPartSize 0 q))
    || decide (16 < s.reserves p .partLinkqReq + bits lq 0 5) || decide (16 < s.reserves p .partLinkqSluice + bits lq 5 5)
    || decide (16 < s.reserves p .partLinkqLedger + bits lq 10 5) || decide (16 < s.reserves p .partLinkqStream + bits lq 15 5)
    || !(ringsInside k) || decide (db < lo) || decide (lo + n ≤ db + 3)

/-- The controllers of a tier. -/
def tierCtls (tier2 : Bool) : List Nat := if tier2 then (List.range 12).map (fun i => 8 + i) else List.range 8

/-- The zero fill of the windows is complete (R756). -/
def State.winsFilled (s : State) (k : Packet) : Bool :=
  k.wins.all (fun w => if w.1 < tier2Base then decide (s.rd .kprZero1Done = 1) else decide (s.rd .kprZero2Done = 1))

/-- A place for a translator table and its level-2 tables: 8 KiB-aligned, inside the control region, apart from every other partition's. -/
def State.tableOk (s : State) (p base : Nat) : Bool :=
  let n := 8192 + 4096 * 1024
  decide (base % 8192 = 0) && decide (ctrlBase ≤ base) && decide (base + n ≤ tier2Base)
    && (List.range 16).all (fun q => decide (q = p) || decide (s.reg .partXlateEn 0 q = 0) || !(overlaps (base, n) (s.l1Base q, n)))

/-- Writes a partition's windows. -/
def State.putWins (s : State) (p : Nat) (l : List (Nat × Nat)) : State :=
  (List.range 8).foldl (fun s w =>
    let x := nth l w (0, 0)
    let s := s.setReg .winV 0 (8 * p + w) (b2n (decide (w < l.length)))
    (s.setReg .winBase 0 (8 * p + w) (x.1 / 2 ^ 21)).setReg .winPages 0 (8 * p + w) (x.2 / 2 ^ 21 - 1)) s

/-- Carries out a PART_CREATE (R725, R726). -/
def State.createPart (s : State) (p : Nat) (k : Packet) (base : Nat) : State :=
  let lq := k.get 0x20 4
  let s := (s.setReg .partQuads 0 p (k.get 0x10 4)).setReg .partFcap 0 p (k.get 0x15 1)
  let s := s.putWins p k.wins
  let s := ((s.setReg .partLinkqReq 0 p (bits lq 0 5)).setReg .partLinkqSluice 0 p (bits lq 5 5)).setReg .partLinkqLedger 0 p (bits lq 10 5)
  let s := s.setReg .partLinkqStream 0 p (bits lq 15 5)
  let s := ((s.setReg .rsvShareWeight 0 p (k.get 0x14 1)).setReg .slcPartBase 0 p (k.get 0x16 2)).setReg .slcPartSize 0 p (k.get 0x18 4)
  let s := (s.setReg .slcPartFlight 0 p (k.get 0x1C 2)).setReg .slcPartEn 0 p 1
  let s := s.setPart p { share := k.get 0x14 1, slcFlight := k.get 0x1C 2, towMask := k.get 0x24 1, towLog2 := k.get 0x25 1,
                         towBase := k.get 0x28 8, towDb := k.get 0x30 2 }
  let s := s.writeRings p
  let s := (s.setReg .partXlateBase 0 p (base / 8192)).setReg .partXlateEn 0 p 1
  let s := s.memWrite base (List.replicate 8192 0) false
  let s := (layoutWins 0 tier2Base k.wins).foldl (fun s w => s.mapRun p (w.2.2 / 2 ^ 21 + 1) w.1 w.2.1 (w.2.2 / 2 ^ 21)) s
  s.setPartState p 1

/-- A packet that needs RUN arrives in STANDBY (R771). -/
def State.wakeChip (s : State) (pid op : Nat) : Bool :=
  match s.packet pid with
  | some p => p.started && decide (p.opcode = op) && decide (s.rd .kprPstateState = 2) && !s.env.off
  | none => false

/-- A partition becomes ACTIVE: a STANDBY request that still ramps power down ends (R771, R784). -/
def State.noStandby (s : State) : State := { s with env := { s.env with standbyIn := false } }

/-- PART_CREATE (R725, R726, R756, R758, R771). Firmware chooses the place of the translator table. -/
def execPartCreate (pid tableBase : Nat) (s : State) : Host.Outcome State Fault Refusal :=
  if s.wakeChip pid 0x10 then fin { s with env := { s.env with runWait := true } }
  else match s.ready pid 0x10 with
    | none => stay s
    | some k =>
      let p := k.part
      if s.reg .partState 0 p ≠ 0 then fin (s.finish k St.partBad)
      else if (s.env.keptMem && !s.env.fillStarted) || s.createRes p k then fin (s.finish k St.partRes)
      else if !(s.winsFilled k) || !(s.tableOk p tableBase) then stay s
      else fin ((s.createPart p k tableBase).noStandby.finish k 0)

/-! ### PART_MAP -/

/-- A page is being moved (R730). -/
def State.moving (s : State) (p pa da : Nat) : Bool :=
  let m (v : Mover) : Bool := decide (v.phase ≠ 0) && ((decide (v.part = p) && decide (v.pa / 2 ^ 21 = pa / 2 ^ 21))
    || decide (v.src / 2 ^ 21 = da / 2 ^ 21) || decide (v.dst / 2 ^ 21 = da / 2 ^ 21))
  m s.ms.mv0 || m s.ms.mv1

/-- PART_MAP with its map or unmap code (R730): rejected where a page is not aligned, lies outside the windows or is being moved; it waits while an
access through an old entry is not complete. -/
def State.partMapGo (s : State) (pid code : Nat) : Host.Outcome State Fault Refusal :=
  match s.ready pid 0x14 with
  | none => stay s
  | some k =>
    let p := k.part
    if k.get 0x10 1 ≠ code then stay s
    else
      let pa := k.get 0x18 8
      let da := k.get 0x20 8
      let n := k.get 0x28 4
      let pages := List.range n
      let map := decide (code = 0)
      if s.reg .partState 0 p = 0 ∨ s.reg .partState 0 p = 4 then fin (s.finish k St.partRes)
      else if pa % 2 ^ 21 ≠ 0 ∨ 2 ^ 40 < pa + n * 2 ^ 21 ∨ (map = true ∧ da % 2 ^ 21 ≠ 0)
          ∨ pages.any (fun i => (map && !(s.inWindow p (da + i * 2 ^ 21)))
              || s.moving p (pa + i * 2 ^ 21) (if map then da + i * 2 ^ 21 else 2 ^ 50)) = true then fin (s.finish k St.partRes)
      else if pages.any (fun i => match s.walk p (pa + i * 2 ^ 21) with
          | some x => s.pageBusy x.1
          | none => false) then stay s
      else fin ((pages.foldl (fun s i => s.map2M p (pa + i * 2 ^ 21) (if map then some (da + i * 2 ^ 21) else none)
        ((k.get 0x11 1).testBit 0)) s).finish k 0)

/-- PART_MAP (R730). -/
def execPartMap (pid : Nat) (s : State) : Host.Outcome State Fault Refusal := s.partMapGo pid 0

/-- PART_MAP with its unmap code (R730). -/
def execPartUnmap (pid : Nat) (s : State) : Host.Outcome State Fault Refusal := s.partMapGo pid 1

/-! ### Powering down, starting, destroying -/

/-- A packet that waits for partition `p` to be powered down: PART_DESTROY, or a PARTITION reset, by packet or by KPR_RESET. -/
def State.downFor (s : State) (p op : Nat) : Bool :=
  s.host.packets.any (fun k => decide (k.wait = 3) && decide (k.part = p) && decide (k.opcode = op) && (decide (op ≠ 3) || decide (k.get 0x10 1 = 2)))
def State.partBusy (s : State) (p : Nat) : Bool :=
  s.downFor p 0x13 || s.downFor p 3 || s.env.offIn
    || (decide (s.rd .kprResetGo = 1) && decide (s.rd .kprResetKind = 2) && decide (s.rd .kprResetPart = p))

/-- Marks a packet as waiting for the power-down. -/
def State.waitDown (s : State) (k : Packet) : State := s.setPacket { k with wait := 3 }

/-- PART_STOP (R734, R735): on an ACTIVE partition the grace begins; the packet completes when the partition is STOPPED. -/
def execPartStop (pid : Nat) (s : State) : Host.Outcome State Fault Refusal :=
  match s.ready pid 0x11 with
  | none => stay s
  | some k =>
    let p := k.part
    let retain := (k.get 0x10 1).testBit 0
    match s.reg .partState 0 p with
    | 1 => fin ((s.setPart p { s.part p with grace := true, retain := retain }).waitDown k)
    | 2 => fin ((s.setPart p { s.part p with retain := retain }).waitDown k)
    | 3 => fin (s.finish k 0)
    | _ => fin (s.finish k St.partBad)

/-- Every partition powers down with no grace and RETAIN = 0 (R772, R802). -/
def State.stopAll (s : State) : State :=
  (List.range 16).foldl (fun s p => if s.reg .partState 0 p = 1 then s.beginStop p false else s.setPart p { s.part p with retain := false }) s

/-- STOPPING_START (R734, Table 15-10): the grace of a PART_STOP is over. -/
def execStoppingStart (p : PartId) (s : State) : Host.Outcome State Fault Refusal :=
  if (s.part p).grace && decide (s.reg .partState 0 p = 1) then fin (s.beginStop p (s.part p).retain) else stay s

/-- No core of the partition runs a task, and each may leave C0. -/
def State.coresQuiet (s : State) (p : Nat) : Bool := (s.coresOf p).all (fun u => s.fenced u || (s.core u).idle)

/-- STOPPING_COMPLETE (R735): the cores enter C2 or C3, the partition is STOPPED, and the PART_STOP packets that waited complete. While the Weir gives
one of the cores ballast they stay in C0, and the loss is recorded (Table 02-4 code 0x3); a later step completes it. -/
def execStoppingComplete (p : PartId) (s : State) : Host.Outcome State Fault Refusal :=
  if s.reg .partState 0 p ≠ 2 ∨ s.coresQuiet p = false then stay s
  else if (s.coresOf p).any (fun u => !(s.fenced u) && decide (tabGet 0 u s.pow.ballast ≠ 0)) then fin (s.policyLoss 3 (some p))
  else
    let st := if (s.part p).retain then 2 else 3
    let s := (s.coresOf p).foldl (fun s u => if s.fenced u || decide (st ≤ (s.core u).cstate) then s else s.enterC u st) s
    let s := s.setPartState p 3
    fin (s.finishAll (fun k => decide (k.wait = 3) && decide (k.opcode = 0x11) && decide (k.part = p.val)) 0)

/-- PART_START (R766, R771): the cores of a STOPPED partition are woken. -/
def execPartStart (pid : Nat) (s : State) : Host.Outcome State Fault Refusal :=
  if s.wakeChip pid 0x12 then fin { s with env := { s.env with runWait := true } }
  else match s.ready pid 0x12 with
    | none => stay s
    | some k =>
      let p := k.part
      match s.reg .partState 0 p with
      | 0 => fin (s.finish k St.partBad)
      | 4 => fin (s.finish k St.partBad)
      | 1 => if (s.part p).grace then stay s else fin (s.finish k 0)
      | 3 =>
        if s.partBusy p then stay s
        else fin ((((s.coresOf p).foldl (fun s u => s.toC0 u) s).setPartState p 1).noStandby.finish k 0)
      | _ => stay s

/-- PART_DESTROY (R736): an ACTIVE partition first powers down with no grace and RETAIN = 0; from STOPPED the teardown scrub begins. -/
def execPartDestroy (pid : Nat) (s : State) : Host.Outcome State Fault Refusal :=
  match s.startedPkt pid 0x13 with
  | none => stay s
  | some k =>
    let p := k.part
    match s.reg .partState 0 p with
    | 1 => fin ((s.waitDown k).beginStop p false)
    | 2 => if k.wait = 3 then stay s else fin ((s.setPart p { s.part p with retain := false }).waitDown k)
    | 3 => fin ((s.waitDown k).setPartState p 4)
    | 4 => if k.wait = 3 then stay s else fin (s.finish k St.partBad)
    | _ => fin (s.finish k St.partBad)

/-- What the teardown scrub does (R736), and the partition's return to FREE (Table 15-8). -/
def State.scrubbed (s : State) (p : Nat) : State :=
  let s := (s.coresOf p).foldl (fun s u =>
    let s := s.clearPairs u 0xFF
    s.setCore u { s.core u with pstore := [], desc := [], ucode := [], zeroed := true }) s
  let s := (List.range 4).foldl (fun s e =>
    let k := s.tow e
    s.setTow e { k with prog := (List.range 256).foldl (fun t i => tabInsert (256 * p + i) 0 (tabErase (256 * p + i) t)) k.prog }) s
  let s := (List.range 8).foldl (fun s w =>
    if s.reg .winV 0 (8 * p + w) = 1 then
      { s with mem := s.mem.zeroRange (s.reg .winBase 0 (8 * p + w) * 2 ^ 21) ((s.reg .winPages 0 (8 * p + w) + 1) * 2 ^ 21) }
    else s) s
  let s := if s.reg .partXlateEn 0 p = 1 then s.memWrite (s.l1Base p) (List.replicate (8192 + 4096 * (s.part p).tables) 0) false else s
  let s := ((s.setReg .partXlateEn 0 p 0).setReg .partXlateBase 0 p 0).clearRings p
  let s := ((s.setReg .slcPartEn 0 p 0).setReg .slcPartBase 0 p 0).setReg .slcPartSize 0 p 0
  let s := (s.setReg .slcPartFlight 0 p 0).setReg .rsvShareWeight 0 p 0
  let s := ((s.setReg .partLinkqReq 0 p 0).setReg .partLinkqSluice 0 p 0).setReg .partLinkqLedger 0 p 0
  let s := s.setReg .partLinkqStream 0 p 0
  let s := s.clearRegs ([Fld.hqsEn, .hqsMode, .hqsTchip, .hqsTcore, .hqsTq, .hqsQuota, .hqsCredits, .hqsFlight, .hqsTorn].map (fun f => f.ctorIdx))
    (fun i _ => decide (i = p))
  let s := (s.putWins p []).setReg .partQuads 0 p 0
  ((s.setReg .partFcap 0 p 15).setPart p {}).setPartState p 0

/-- TEARDOWN_SCRUB_DONE (R736, R338). -/
def execTeardownScrubDone (p : PartId) (s : State) : Host.Outcome State Fault Refusal :=
  if s.reg .partState 0 p ≠ 4 then stay s
  else fin ((s.scrubbed p).finishAll (fun k => decide (k.wait = 3) && decide (k.opcode = 0x13) && decide (k.part = p.val)) 0)

/-! ### Resets and their sources -/

/-- A source asks for a reset of this kind: its packet, the units that its mask names, and those already done. -/
def State.resetAsked (s : State) (src : ReqSrc) (kind : Nat) : Option (Option Packet × Nat × Nat) :=
  match src with
  | .packet pid => match s.startedPkt pid 3 with
    | some k => if k.get 0x10 1 = kind then some (some k, if kind = 3 then k.get 0x20 16 else k.get 0x30 3, k.done) else none
    | none => none
  | .register =>
    if s.rd .kprResetGo = 1 ∧ s.rd .kprResetKind = kind then
      some (none, if kind = 3 then s.rd .kprResetMask else s.rd .kprResetMask % 2 ^ 24, s.env.resetDone)
    else none
  | .mctp => none

/-- A reset is complete: its packet completes with OK (R764), or GO reads 0 and source 10 of Table 19-4 rises. -/
def State.resetEnd (s : State) (k : Option Packet) : State :=
  match k with
  | some k => s.finish k 0
  | none => { (s.wr .kprResetGo 0) with env := { (s.wr .kprResetGo 0).env with resetDone := 0, intSticky := s.env.intSticky ||| 0x400 } }

/-- One unit of a mask is done; the reset is complete once every one is. -/
def State.resetUnit (s : State) (k : Option Packet) (mask done i : Nat) : State :=
  let d := done ||| 2 ^ i
  if mask &&& d = mask then s.resetEnd k
  else match k with
    | some k => s.setPacket { k with done := d }
    | none => { s with env := { s.env with resetDone := d } }

/-- CORE_RESET (R761, R764, R785): a running task is halted, and its launch ends with ABORTED; once its work is complete the enabled queues are
flushed and the K fields return to Reset. A fenced core stays as it is. A core whose partition is being reset waits for that (R780). -/
def execCoreReset (src : ReqSrc) (u : CoreId) (s : State) : Host.Outcome State Fault Refusal :=
  match s.resetAsked src 3 with
  | none => stay s
  | some (k, mask, done) =>
    let foreign := match k with
      | some k => !k.chip && (maskCores mask).any (fun v => !((s.coresOf k.part).contains v))
      | none => false
    if foreign then fin (match k with | some k => s.finish k St.partBad | none => s)
    else if mask = 0 then fin (s.resetEnd k)
    else if !(mask.testBit u) || done.testBit u || (s.partOf u).any (fun p => s.partBusy p) then stay s
    else if s.fenced u then fin (s.resetUnit k mask done u)
    else
      let s := s.haltTask u St.aborted
      if (s.core u).tasked then fin s
      else fin (((s.flushAll u).coreClearK u).resetUnit k mask done u)

/-- A CORE reset of cores of a partition that was asked for while a PARTITION reset was in progress ends with it (R780): its cores of the partition count
as done. -/
def State.coverCores (s : State) (p : Nat) : State :=
  let own := (s.coresOf p).foldl (fun m u => m ||| 2 ^ u) 0
  let s := s.host.packets.foldl (fun s k =>
    if k.started && decide (k.opcode = 3) && decide (k.get 0x10 1 = 3) && (k.chip || decide (k.part = p)) then
      let mask := k.get 0x20 16
      let d := k.done ||| (mask &&& own)
      if mask &&& d = mask then s.finish k 0 else s.setPacket { k with done := d }
    else s) s
  if s.rd .kprResetGo = 1 ∧ s.rd .kprResetKind = 3 then
    let mask := s.rd .kprResetMask
    let d := s.env.resetDone ||| (mask &&& own)
    if mask &&& d = mask then s.resetEnd none else { s with env := { s.env with resetDone := d } }
  else s

/-- The floor that a PARTITION reset leaves: its cores at their MIN, everything else as it is, and not below MIN_W (R76, R73). -/
def State.resetFloor (s : State) (p : Nat) : Nat :=
  max (s.floorLeft (fun i => (s.coresOf p).contains i && !(s.fenced i))) (4000 * s.rd .weirMinW)

/-- PARTITION_RESET (R760, R764, R780): an ACTIVE partition first powers down; from STOPPED, once the Weir has ramped down to the floor that the reset leaves
(R76), its T fields return to Reset and it ends ACTIVE. -/
def execPartitionReset (src : ReqSrc) (p : PartId) (s : State) : Host.Outcome State Fault Refusal :=
  match s.resetAsked src 2 with
  | none => stay s
  | some (k, _, _) =>
    let named := match k with
      | some k => decide (k.part = p.val)
      | none => decide (s.rd .kprResetPart = p.val)
    if !named then stay s
    else
      let wait (s : State) : State := match k with
        | some k => s.waitDown k
        | none => s
      match s.reg .partState 0 p with
      | 0 => fin (s.resetEnd k)
      | 1 => fin ((wait s).beginStop p false)
      | 3 => if s.atFloor (s.resetFloor p) then fin (((s.partReset p).coverCores p).resetEnd k) else fin (wait s)
      | _ => fin (wait s)

/-- LINK_RESET (R762, R764). -/
def execLinkReset (src : ReqSrc) (l : LinkId) (s : State) : Host.Outcome State Fault Refusal :=
  match s.resetAsked src 4 with
  | none => stay s
  | some (k, mask, done) =>
    if mask = 0 then fin (s.resetEnd k)
    else if !(mask.testBit l) || done.testBit l then stay s
    else fin ((s.linkReset l).resetUnit k mask done l)

/-- The die is reset, and start-up goes on from the end of step 2: the fuses are loaded again and the Keeper ROM starts (Table 16-2). -/
def State.chipGo (s : State) (keep : Bool) : State := (s.chipReset keep).wr .kprStep 4

/-- A CHIP reset has been accepted: it takes place at once, or waits until the Weir has ramped down to the floor that it leaves (R76), every island at
its MIN (DESIGN CHOICE, log 103). -/
def State.chipAsk (s : State) (keep : Bool) : State :=
  if s.atFloor (s.floorLeft (fun _ => true)) then s.chipGo keep else { s with env := { s.env with resetWait := some keep } }

/-- CHIP_RESET (R758, R764, R76, Table 16-2): by packet with KEEP_MEM = 0, by KPR_RESET, or over MCTP. Both tiers go into self-refresh and the die is
reset. While a reset waits for the Weir, a further command tries again. A packet's reset writes no status; a command of the board management
controller is answered BUSY before READY (R896). -/
def execChipReset (src : ReqSrc) (s : State) : Host.Outcome State Fault Refusal :=
  match s.env.resetWait with
  | some keep => if s.atFloor (s.floorLeft (fun _ => true)) then fin (s.chipGo keep) else stay s
  | none =>
    match src with
    | .mctp =>
      if s.rd .kprStep < 4 then stay s
      else if s.rd .kprReady = 0 then fin (s.emit (.mctp 4 1 []))
      else fin ((s.emit (.mctp 4 0 [])).chipAsk (decide (s.rd .kprKeepMem = 1)))
    | .packet _ => if (s.resetAsked src 1).isSome then fin (s.chipAsk false) else stay s
    | .register => if (s.resetAsked src 1).isSome then fin (s.chipAsk (decide (s.rd .kprKeepMem = 1))) else stay s

end Sys2Proof.Machine
end

