-- ==== Sys2Proof/Machine/Launch.lean ====
section
/-! DEFINITION. Packets that start work in a partition (15_host_partitions_and_commands.md R710 to R724): launches with their end, time limit and
abort, SLUICE_OP, QUEUE_KICK, COPY, MIGRATE and TOW_LOAD. -/

namespace Sys2Proof.Machine

/-- The opcodes that work inside a partition complete with PART_DOWN while it is powering down, stopped or being scrubbed (R734). -/
def State.partGone (s : State) (p : Nat) : Bool := decide (2 ≤ s.reg .partState 0 p)

/-- The accesses of a list of (address, bytes) can all be made now. -/
def State.allClear (s : State) (cls port p : Nat) (l : List (Nat × Nat)) : Bool := l.all (fun x => s.canAccess cls port p x.1 x.2)

/-- Waits for the first access of the list that cannot be made now. -/
def State.awaitAny (s : State) (cls port p : Nat) (l : List (Nat × Nat)) : Host.Outcome State Fault Refusal :=
  match l.find? (fun x => !(s.canAccess cls port p x.1 x.2)) with
  | some x => s.awaitAccess cls port p x.1 x.2
  | none => stay s

/-! ### SIGNAL(+1) of a DONE sluice -/

/-- No earlier sluice operation of the host block to this sluice is in flight (R580). -/
def State.doneClear (s : State) (num : Nat) : Bool :=
  !(s.net.any (fun m => (decide (m.op = .sop) || decide (m.op = .waiter)) && decide (m.src = 184) && decide (m.srcChip = s.chip)
    && decide (m.dstChip = s.chip) && decide (m.addr = num)))

/-- SIGNAL(+1) at its bank (R712, R718): absorbed where the sluice's partition is powering down. -/
def State.signalDone (s : State) (num : Nat) : State :=
  match s.slcDown num with
  | some p => s.bump .partAbsorbed 0 p 1
  | none => (s.slcApply num Sop.signal 1).1

/-! ### Core records (Table 15-7) -/

/-- The fields of a core record, as (byte offset, first bit, width). -/
def recordFields : List (Nat × Nat × Nat) :=
  [(0, 0, 64), (8, 0, 12), (0xA, 0, 8), (0xB, 0, 2), (0xC, 0, 32), (0x10, 0, 12), (0x40, 0, 2048), (0x140, 0, 2048), (0x240, 0, 2048), (0x340, 0, 1024)]

/-- The partition address of core `u`'s record: one for each core in ascending order, or record 0 for all under SAME. -/
def Packet.recAddr (k : Packet) (i : Nat) : Nat := k.get 0x20 8 + (if (k.get 0x30 1).testBit 0 then 0 else 1024 * i)

/-- A record's program: its partition address and its bytes' number; none under KEEP_PROG. -/
def recProg (r : Bytes) : Option (Nat × Nat) := if (field r 0xB 1).testBit 0 then none else some (field r 0 8, 16 * (bits (field r 8 2) 0 12 + 1))

/-- What is wrong with a record: a failed read, a reserved bit, a program address that is no multiple of 16, or a failed read of the program. -/
def State.recordBad (s : State) (p addr : Nat) : Nat :=
  let x := s.readPa p addr 1024
  let r := x.1
  if x.2.2 ≠ 0 then x.2.2
  else if reservedSet recordFields (ofBytes r) then St.pktBad
  else match recProg r with
    | none => 0
    | some (a, n) => if a % 16 ≠ 0 then St.pktBad else (s.readPa p a n).2.2

/-- The first record that cannot be used. -/
def firstStatus : List Nat → Nat
  | [] => 0
  | a :: t => if a = 0 then firstStatus t else a

/-- The places that a record's reads name, as (address, bytes): the record, and its program where the record can be read. -/
def State.recordReads (s : State) (p addr : Nat) : List (Nat × Nat) :=
  let x := s.readPa p addr 1024
  (addr, 1024) :: (if x.2.2 ≠ 0 then [] else match recProg x.1 with
    | none => []
    | some (a, n) => [(a, n)])

/-- What the code finds in the records at `addrs` and in their programs; a record is read before its program, which it names. -/
def State.recordErrs (s : State) (p : Nat) (addrs : List Nat) (ecc : List MemErr) : State :=
  let s := addrs.foldl (fun s a => s.memErrs p a 1024 ecc) s
  addrs.foldl (fun s a => ((s.recordReads p a).drop 1).foldl (fun s x => s.memErrs p x.1 x.2 ecc) s) s

/-! ### Queue registers of a record -/

/-- Writes queue descriptor `q` but for its lend fields, from its two words. -/
def State.loadQd (s : State) (u q w0 w1 : Nat) : State :=
  let s := (s.setReg .qdEn u q (bits w0 0 1)).setReg .qdFlight u q (bits w1 0 16)
  let r := ringTake 0 (s.reg .qdBase u q) (s.reg .qdCells u q) (bits w0 1 14) (bits w0 15 13)
  let s := (s.setReg .qdBase u q r.1).setReg .qdCells u q r.2.1
  if r.2.2 then s.gevent Gs.illegal 0x11 u q 18 else s

/-- Writes send entry `n` from its word 0. -/
def State.loadQs (s : State) (u n w : Nat) : State :=
  let s := ((s.setReg .qsEn u n (bits w 0 1)).setReg .qsMode u n (bits w 1 1)).setReg .qsTchip u n (bits w 2 8)
  let s := ((s.setReg .qsTcore u n (bits w 10 7)).setReg .qsTq u n (bits w 17 4)).setReg .qsFlight u n (bits w 48 16)
  if bits w 21 13 ≤ 4096 then s.setQuota u n (bits w 21 13) else s.gevent Gs.illegal 0x11 u n 18

/-- LOAD_Q: the queue descriptors, send entries and deal groups of a record (R716), but for the lend fields. -/
def State.loadQueues (s : State) (u : Nat) (r : Bytes) : State :=
  if !((field r 0xB 1).testBit 1) then s
  else
    let s := (List.range 16).foldl (fun s q => s.loadQd u q (field r (0x140 + 16 * q) 8) (field r (0x148 + 16 * q) 8)) s
    let s := (List.range 16).foldl (fun s n => s.loadQs u n (field r (0x240 + 16 * n) 8)) s
    (List.range 32).foldl (fun s m => s.setReg .qgMember u m (field r (0x340 + 4 * m) 4)) s

/-- LOAD_Q: the lend fields, once every core of the launch has its descriptors (R464). -/
def State.loadLends (s : State) (u : Nat) (r : Bytes) : State :=
  if !((field r 0xB 1).testBit 1) then s
  else (List.range 16).foldl (fun s q =>
    let w := field r (0x140 + 16 * q) 8
    s.setLend u q (bits w 35 1) (bits w 36 7) (bits w 43 4) (bits w 47 13) q 18) s

/-! ### Starting a task -/

/-- Loads program words from word 0 on. -/
def State.loadProg (s : State) (u : Nat) (l : Bytes) : State :=
  (List.range (l.length / 16)).foldl (fun s i => s.setPword u i (field l (16 * i) 16)) s

/-- Starts core `u`'s sequencer at `pc` (R356, R365, R419): the registers named by `mask` take the values of `regs`, every other one 0. -/
def State.startTask (s : State) (u pc mask : Nat) (regs : Nat → Nat) : State :=
  let s := (List.range 32).foldl (fun s n => if n = 0 then s else s.setReg .coreSreg u n (if mask.testBit n then regs n else 0)) s
  let s := ((s.setReg .coreTc u 0 (0x10000000 + s.reg .coreShape u 0)).setReg .coreTc u 1 0).setReg .coreTc u 2 0
  let s := ((s.setReg .tstatusCode u 0 0).setReg .tstatusPc u 0 0).setReg .tstatusValid u 0 0
  let s := ((s.setReg .coreRun u 0 1).setReg .coreHalted u 0 0).setReg .corePc u 0 pc
  s.setCore u { s.core u with tasked := true, stopping := false, pcOver := false, hold := .none, cycles := 0 }

/-- Starts a core from its record. -/
def State.startRecord (s : State) (u : Nat) (r : Bytes) : State :=
  s.startTask u (bits (field r 0x10 2) 0 12) (field r 0xC 4) (fun n => field r (0x40 + 8 * n) 8)

/-- What a launch does to one core before the sequencer starts (R716): it wakes, takes its program, clears its pairs and loads its queues. -/
def State.prepare (s : State) (p u : Nat) (r : Bytes) : State :=
  let s := s.toC0 u
  let s := match recProg r with
    | none => s
    | some (a, n) => (s.loadProg u (s.readPa p a n).1).countLines Cls.mgmt p (lineCount a n)
  (s.clearPairs u (field r 0xA 1)).loadQueues u r

/-- URGENT (R720, R85, Table 02-4 code 0x5): in the chip's slot a ramp opens where demand asks for one; outside it the request loses to pacing. -/
def State.askRamp (s : State) (p : Nat) : State :=
  if s.rd .weirRampOpen = 1 then s
  else if s.inSlotStart && !s.pow.holdAll then
    if s.pow.close4 + 4000 * s.rd .weirFreeW < s.pow.demand4 then s.wr .weirRampOpen 1 else s
  else s.policyLoss 5 (some p)

/-! ### LAUNCH -/

/-- The checks of a LAUNCH in order: a chip out of service (R802), the partition (R734), its cores (R715), the DONE sluice, the records. -/
def State.launchBad (s : State) (k : Packet) : Nat :=
  let p := k.part
  let cores := maskCores (k.get 0x10 16)
  firstBad [(s.env.chipOut, St.chipDown), (s.partGone p || (s.part p).grace, St.partDown),
    (cores.any (fun u => !((s.coresOf p).contains u)) || decide (s.reg .partState 0 p = 0), St.partBad),
    (cores.any (fun u => (s.core u).tasked), St.coreBusy), (cores.any (fun u => s.fenced u), St.coreFenced),
    ((k.get 0x32 2).testBit 15 && !(s.inSluices p (bits (k.get 0x32 2) 0 14)), St.slcBad)]

/-- The cores of a LAUNCH with the addresses of their records. -/
def Packet.recs (k : Packet) : List (Nat × Nat) :=
  let cores := maskCores (k.get 0x10 16)
  cores.zip ((List.range cores.length).map (fun i => k.recAddr i))

/-- Starts a launch whose checks have passed. -/
def State.startLaunch (s : State) (k : Packet) : State :=
  let p := k.part
  let recs := k.recs.map (fun x => (x.1, x.2, (s.readPa p x.2 1024).1))
  let lid := s.host.nextLid
  let s := recs.foldl (fun s x => (s.prepare p x.1 x.2.2).countLines Cls.mgmt p (lineCount x.2.1 1024)) s
  let s := recs.foldl (fun s x => s.loadLends x.1 x.2.2) s
  let s := recs.foldl (fun s x =>
    let s := s.startRecord x.1 x.2.2
    s.setCore x.1 { s.core x.1 with launch := some lid }) s
  let l : Launch := { lid := lid, pid := k.pid, fn := k.fn, part := p, cores := recs.map (fun x => x.1), fallback := k.get 0x28 8,
                      done := bits (k.get 0x32 2) 0 14, doneEn := (k.get 0x32 2).testBit 15, timeout := k.get 0x34 4, urgent := k.urgent,
                      recs := k.recs }
  let s := { s with host := { s.host with nextLid := lid + 1, launches := s.host.launches ++ [l] } }
  let s := if k.urgent then
      ({ s with pow := { s.pow with urgent := l.cores.foldl (fun t u => setAdd u t) s.pow.urgent } }).askRamp p
    else s
  s.setPacket { k with wait := 7 }

/-- LAUNCH (R711, R715, R716). `pid.errs` lists the lines read with errors. -/
def execLaunch (pid : Met Nat MemErr) (s : State) : Host.Outcome State Fault Refusal :=
  match s.ready pid.arg 0x100 with
  | none => stay s
  | some k =>
    let bad := s.launchBad k
    if bad ≠ 0 then fin (s.finish k bad)
    else
      let addrs := k.recs.foldl (fun t x => if t.contains x.2 then t else t ++ [x.2]) []
      let reads := addrs.flatMap (fun a => s.recordReads k.part a)
      if !(s.allClear Cls.mgmt k.part k.part reads) then s.awaitAny Cls.mgmt k.part k.part reads
      else
      let s := s.recordErrs k.part addrs pid.errs
      let st := firstStatus (k.recs.map (fun x => s.recordBad k.part x.2))
      if st ≠ 0 then fin ((if st = St.dmaXlate then s.noteXlate k.part else s).finish k st)
      else fin (s.startLaunch k)

/-! ### The end of a launch -/

/-- Every core of a launch has ended its task. -/
def Launch.over (l : Launch) : Bool := l.cores.all (fun u => l.ended.any (fun e => decide (e.1 = u)))

/-- The status of a launch (R718), with the core and the program counter that it comes from. -/
def Launch.status (l : Launch) : Nat × Option (Nat × Nat) :=
  if l.forced ≠ 0 then (l.forced, none)
  else
    let bad := l.ended.filter (fun e => decide (e.2.1 ≠ 0))
    match bad.foldl (fun (best : Option (Nat × Nat × Nat)) e => match best with
        | none => some e
        | some b => if e.1 < b.1 then some e else some b) none with
    | some e => (e.2.1, some (e.1, e.2.2))
    | none => (0, none)

/-- A launch is over: it is taken out, with its cores' urgency. -/
def State.dropLaunch (s : State) (l : Launch) : State :=
  { s with host := { s.host with launches := s.host.launches.filter (fun x => decide (x.lid ≠ l.lid)) },
           pow := { s.pow with urgent := if l.urgent then s.pow.urgent.filter (fun u => !(l.cores.contains u)) else s.pow.urgent } }

/-- LAUNCH_COMPLETE (R718, R719): DONE is signalled, then the status is written. RESULT0 names the core of a core's status; where no core's status
is reported its other fields are left free. -/
def execLaunchComplete (lid : Nat) (s : State) : Host.Outcome State Fault Refusal :=
  match s.host.launches.find? (fun l => decide (l.lid = lid)) with
  | none => stay s
  | some l =>
    if !l.over || (l.doneEn && !(s.doneClear l.done)) then stay s
    else
      let s := if l.doneEn then s.signalDone l.done else s
      let st := l.status
      let s := s.dropLaunch l
      match s.packet l.pid with
      | none => fin s
      | some k =>
        match st.2 with
        | some (u, pc) => fin (s.finishWith k st.1 l.num (u + 128 + pc * 256) l.maxCyc)
        | none =>
          let (r, s) := s.draw64
          fin (s.finishWith k st.1 l.num (putBits (r % 2 ^ 20) 7 1 0) l.maxCyc)

/-- Halts every core of a launch that still runs. -/
def State.haltLaunch (s : State) (l : Launch) (st : Nat) : State := l.cores.foldl (fun s u =>
  if (s.core u).launch = some l.lid then s.haltTask u st else s) s

/-- LAUNCH_TIMEOUT (R718): TIMEOUT_US has passed. -/
def execLaunchTimeout (lid : Nat) (s : State) : Host.Outcome State Fault Refusal :=
  match s.host.launches.find? (fun l => decide (l.lid = lid)) with
  | none => stay s
  | some l => if l.timeout = 0 ∨ l.over = true then stay s else fin (s.haltLaunch l St.timeout)

/-- ABORT (R714, R745): a running launch of the same function whose packet has this tag is halted; RESULT0 says whether there was one. -/
def execAbort (pid : Nat) (s : State) : Host.Outcome State Fault Refusal :=
  match s.ready pid 0x103 with
  | none => stay s
  | some k =>
    if s.partGone k.part then fin (s.finish k St.partDown)
    else
      let named (l : Launch) : Bool := decide (l.fn = k.fn) && !l.over && (match s.packet l.pid with
        | some x => decide (x.htag = k.get 0x10 2)
        | none => false)
      let (r1, t) := s.draw64
      match s.host.launches.find? named with
      | some l => fin ((t.haltLaunch l St.aborted).finishWith k 0 0 1 r1)
      | none => fin (t.finishWith k 0 0 0 r1)

/-! ### SLUICE_OP and QUEUE_KICK -/

/-- SLUICE_OP (R722, R564, R565): the operation goes to its bank as one of the partition's; the packet waits for the answer. -/
def execSluiceOp (pid : Nat) (s : State) : Host.Outcome State Fault Refusal :=
  match s.ready pid 0x101 with
  | none => stay s
  | some k =>
    let p := k.part
    let op := bits (k.get 0x10 1) 0 3
    let remote := (k.get 0x10 1).testBit 7
    let num := bits (k.get 0x11 2) 0 14
    if s.partGone p then fin (s.finish k St.partDown)
    else if !remote && !(s.inSluices p num) then fin (s.finish k St.slcBad)
    else
      let (tag, s) := s.fresh
      let s := s.setPacket { k with wait := 5, tag := tag }
      fin (s.send { op := if op = Sop.wait then .waiter else .sop, srcChip := s.chip, src := 184, sub := if op = Sop.wait then tag else 0,
                    dstChip := if remote then k.get 0x13 1 else s.chip, dst := bankIsland num, part := p, flight := s.flightOf p, tag := tag,
                    addr := num, code := op, arg := if op = Sop.wait then k.get 0x18 8 % 2 ^ 48 else k.get 0x18 8, len := b2n remote })

/-- QUEUE_KICK (R723, R724): an item goes through a host send entry of the partition, as its credits cover it; else the packet completes with Q_FULL,
or waits under WAIT and is tried again. -/
def execQueueKick (pid : Nat) (s : State) : Host.Outcome State Fault Refusal :=
  match s.startedPkt pid 0x102 with
  | none => stay s
  | some k =>
    let p := k.part
    let e := bits (k.get 0x10 1) 0 4
    let words := bits (k.get 0x11 1) 0 4 + 1
    let need := cellsOf words
    let have_ := s.reg .hqsCredits p e
    if s.partGone p then fin (s.finish k St.partDown)
    else if s.reg .hqsEn p e = 0 then fin (s.finish k St.queueBad)
    else if have_ < need then
      if (k.get 0x10 1).testBit 4 then (if k.wait = 4 then stay s else fin (s.setPacket { k with wait := 4 }))
      else fin (s.finish k St.qFull)
    else
      let s := s.setReg .hqsCredits p e (have_ - need)
      let s := s.send { op := .item, srcChip := s.chip, src := 184, sub := 16 * p + e, dstChip := s.chip, dst := s.reg .hqsTcore p e,
                        dsub := s.reg .hqsTq p e, part := p, flight := s.reg .hqsFlight p e, arg := tabGet 0 (16 * p + e) s.host.gens,
                        data := markItem (sliceBytes k.bytes 0x20 (8 * words)), addr := s.reg .hqsTcore p e }
      fin (s.finish k 0)

/-! ### COPY -/

/-- The address space and port of a COPY's device side: the partition's, or device addresses for a chip-level packet of the PF. -/
def Packet.space (k : Packet) : Nat := if k.chip then 16 else k.part

/-- Copies one piece of the destination: (address, bytes, offset). What cannot be read is not written; poison goes with the data. -/
def State.copyPiece (s : State) (p src : Nat) (x : Nat × Nat × Nat) : State × Nat :=
  let r := s.readPa p (src + x.2.2) x.2.1
  if r.2.2 = St.dmaXlate then (s.noteXlate p, St.dmaXlate)
  else
    let w := s.writePa p x.1 r.1 r.2.1
    (w.1, if w.2 ≠ 0 then w.2 else r.2.2)

/-- DMA_XLATE stands before MEM_UE. -/
def worseSt (a b : Nat) : Nat := if a = St.dmaXlate then a else if b = 0 then a else b

/-- A device address of a COPY: this chip's own number may stand in bits [47:40] (10_memory_tiers.md "The model"). -/
def State.copyAddr (s : State) (a : Nat) : Nat := if a / 2 ^ 40 = s.chip then a % 2 ^ 40 else a

/-- An address whose chip number is none of the system's, or names a chip that no route reaches (R484). -/
def State.noChip (s : State) (a : Nat) : Bool := decide (2 ^ 40 ≤ a) && !(s.chipUp (a / 2 ^ 40))

/-- Moves the bytes of a COPY (R712, Table 17-2) from `src` to `dst`: the state after it, and its status. `host` holds what the host read returned. -/
def State.copyGo (s : State) (k : Packet) (src dst : Nat) (host : Option Bytes) : State × Nat :=
  let p := k.space
  let n := k.get 0x20 8
  let fl := k.get 0x28 1
  match fl % 4, host with
  | 0, _ => (linesOf dst n).foldl (fun (acc : State × Nat) x =>
      let r := acc.1.copyPiece p src x
      (r.1, worseSt acc.2 r.2)) (s, 0)
  | _, none => (s, St.hostFault)
  | 1, some b => s.writePa p dst (sliceBytes b 0 n) false
  | 2, some _ => (linesOf src n).foldl (fun (acc : State × Nat) x =>
      let r := acc.1.readPa p x.1 x.2.1
      if r.2.2 = St.dmaXlate then (acc.1.noteXlate p, worseSt acc.2 St.dmaXlate)
      else (acc.1.emit (.hostWrite (dst + x.2.2) r.1 r.2.1), worseSt acc.2 r.2.2)) (s, 0)
  | _, some b => (s.emit (.hostWrite dst (sliceBytes b 0 n) false), 0)

/-- COPY (R712): completes when its last byte is visible, and then signals DONE. A device address of a chip that is not there completes it with
MEM_NOCHIP (R484); one of another chip fails translation, as COPY moves data within the chip. `host.errs` lists the source lines read with errors. -/
def execCopy (pid : Nat) (host : Met (Option Bytes) MemErr) (s : State) : Host.Outcome State Fault Refusal :=
  match s.ready pid 0x110 with
  | none => stay s
  | some k =>
    let p := k.space
    let srcHost := (k.get 0x28 1).testBit 0
    let dstHost := (k.get 0x28 1).testBit 1
    let src := if srcHost then k.get 0x10 8 else s.copyAddr (k.get 0x10 8)
    let dst := if dstHost then k.get 0x18 8 else s.copyAddr (k.get 0x18 8)
    let n := k.get 0x20 8
    let mine := (if srcHost then [] else [(src, n)]) ++ (if dstHost then [] else [(dst, n)])
    let doneEn := (k.get 0x2A 2).testBit 15
    let num := bits (k.get 0x2A 2) 0 14
    if p < 16 ∧ s.partGone p = true then fin (s.finish k St.partDown)
    else if doneEn && decide (p < 16) && !(s.inSluices p num) then fin (s.finish k St.slcBad)
    else if mine.any (fun x => s.noChip x.1) then fin (s.finish k St.memNochip)
    else if doneEn && !(s.doneClear num) then stay s
    else if !(s.allClear Cls.mgmt p p mine) then s.awaitAny Cls.mgmt p p mine
    else
      let r := (if srcHost then s else s.memErrs p src n host.errs).copyGo k src dst host.arg
      let t := if srcHost then r.1 else r.1.countLines Cls.mgmt p (lineCount src n)
      let t := if dstHost then t else t.countLines Cls.mgmt p (lineCount dst n)
      let bad := decide (r.2 = St.dmaXlate) || decide (r.2 = St.hostFault)
      fin ((if doneEn && !bad then t.signalDone num else t).finish k r.2)

/-! ### MIGRATE -/

/-- A free page for DA = 0: aligned, of the tier, inside the partition's windows, mapped by no entry and the destination of no move (R713). -/
def State.freePage (s : State) (p tier da : Nat) : Bool :=
  decide (da % 2 ^ 21 = 0) && decide (da < 2 ^ 40) && decide ((da < tier2Base) = (tier = 1)) && s.inWindow p da && !(s.mapped da)
    && !(decide (s.ms.mv0.phase ≠ 0) && decide (s.ms.mv0.dst = da)) && !(decide (s.ms.mv1.phase ≠ 0) && decide (s.ms.mv1.dst = da))

/-- Some page of the partition's windows is free. -/
def State.anyFree (s : State) (p tier : Nat) : Bool :=
  (List.range 8).any (fun w => decide (s.reg .winV 0 (8 * p + w) = 1)
    && (List.range (s.reg .winPages 0 (8 * p + w) + 1)).any (fun i => s.freePage p tier ((s.reg .winBase 0 (8 * p + w) + i) * 2 ^ 21)))

/-- MIGRATE (R713, R514): the Keeper starts the lower free mover; while both are busy the move is rejected with MOVE_BAD. `choice` is the Keeper's
page for DA = 0. -/
def execMigrate (pid choice : Nat) (s : State) : Host.Outcome State Fault Refusal :=
  match s.ready pid 0x111 with
  | none => stay s
  | some k =>
    let p := k.part
    let pa := k.get 0x10 8
    let da := k.get 0x18 8
    let tier := k.get 0x20 1
    if s.partGone p then fin (s.finish k St.partDown)
    else if da = 0 ∧ s.anyFree p tier = false then fin (s.finish k St.partRes)
    else if da = 0 ∧ s.freePage p tier choice = false then stay s
    else
      let dst := if da = 0 then choice else da
      if 2 ^ 40 ≤ pa ∨ 2 ^ 40 ≤ dst ∨ s.moveBad p pa dst = true then fin (s.finish k St.moveBad)
      else if s.ms.mv0.phase = 0 then
        if s.portOpen Cls.mover 0 then fin ((s.startMove 0 p pa dst (some pid)).setPacket { k with wait := 6 }) else stay s
      else if s.ms.mv1.phase = 0 then
        if s.portOpen Cls.mover 1 then fin ((s.startMove 1 p pa dst (some pid)).setPacket { k with wait := 6 }) else stay s
      else fin (s.finish k St.moveBad)

/-- MOVE_SWITCH (R515, Table 10-7): no access that was translated to the source still waits; the MIGRATE that asked for the move completes. `m.errs` lists
the marked lines read with errors. -/
def execMoveSwitch (m : Met (Fin 2) MemErr) (s : State) : Host.Outcome State Fault Refusal :=
  let v := s.mover m.arg
  if v.phase ≠ 3 ∨ s.pageBusy v.src = true then stay s
  else
    let s := ((s.moveCount m.arg v.marked.length).moveErrs m.arg (m.errs.filter (fun e => v.marked.contains e.line))).switchMove m.arg
    fin (match v.pid with
      | none => s
      | some pid => match s.packet pid with
        | some k => s.finish k 0
        | none => s)

/-! ### TOW_LOAD -/

/-- Writes a word of an engine's program store. -/
def State.setTowWord (s : State) (e w v : Nat) : State :=
  let k := s.tow e
  s.setTow e { k with prog := tabInsert w (v % 2 ^ 32) (tabErase w k.prog) }

/-- TOW_LOAD (Table 15-5, R672): words go into the partition's region of each engine of the mask. `pid.errs` lists the lines read with errors. -/
def execTowLoad (pid : Met Nat MemErr) (s : State) : Host.Outcome State Fault Refusal :=
  match s.ready pid.arg 0x112 with
  | none => stay s
  | some k =>
    let p := k.part
    let w0 := k.get 0x11 1
    let n := k.get 0x12 1 + 1
    let src := k.get 0x18 8
    if s.partGone p then fin (s.finish k St.partDown)
    else if !(s.canAccess Cls.mgmt p p src (4 * n)) then s.awaitAccess Cls.mgmt p p src (4 * n)
    else
      let r := (s.memErrs p src (4 * n) pid.errs).serverRead Cls.mgmt p p src (4 * n)
      if r.2.2.2 ≠ 0 then fin (r.1.finish k r.2.2.2)
      else
        let s := (onesOf 4 (k.get 0x10 1)).foldl (fun s e =>
          (List.range n).foldl (fun s i => s.setTowWord e (256 * p + w0 + i) (field r.2.1 (4 * i) 4)) s) r.1
        fin (s.finish k 0)

end Sys2Proof.Machine
end

