-- ==== Sys2Proof/Machine/Faults.lean ====
section
/-! DEFINITION. Faults, fencing, fallback maps, chips out of service and capture (17_faults_and_debug.md R787 to R822; 09_flights_queues_and_mapping.md
R467 to R471). -/

namespace Sys2Proof.Machine

/-! ### Fencing a core -/

/-- The flight of a fenced core's queues: that of its first enabled queue. -/
def State.coreFlight (s : State) (u : Nat) : Nat :=
  (((List.range 16).find? (fun q => decide (s.reg .qdEn u q = 1))).map (fun q => s.reg .qdFlight u q)).getD 0

/-- The record of a fence (Table 17-4), or the STAT event of the YZ2-KB block (Table 20-7 kind 3). -/
def State.fenceRecord (s : State) (u cause code action : Nat) : State :=
  let ql := s.reg .coreQlast u 0
  if u = 128 then s.emit (.kbStat (3 + cause * 16 + s.pc u * 4096 + ql % 2 ^ 40 * 2 ^ 24))
  else s.errRecord { cls := 2, source := 0, unit := u, part := s.partOf u, code := code, action := action, detail := cause, pc := s.pc u,
                     seq := bits ql 0 32, stage := bits ql 32 12, flight := s.coreFlight u }

/-- The sequencer issues nothing further and the arrays stop (R796): what has been sent goes on without the core. -/
def State.freeze (s : State) (u : Nat) : State :=
  let s := s.dropWaiters u (fun _ => true)
  let c := s.core u
  let s := s.setCore u { c with stopping := true, xfers := [], heldMma := [], posted := [], sb := [], qFeed := [], qDrain := [], qDma := [],
                                qFront := [], waits := [], hold := .none, capture := none, stepOne := false }
  let s := (s.setReg .dmaBusy u 0 0).setReg .dmaBusy u 1 0
  { (s.setReg .coreRun u 0 0).setReg .coreHalted u 0 1 with
    net := s.net.filter (fun m => !(decide (m.op = .sop) && decide (m.src = u) && decide (m.srcChip = s.chip) && s.ordWaits m)) }

/-- The launch that a core's task belongs to. -/
def State.launchOf (s : State) (u : Nat) : Option Launch :=
  match (s.core u).launch with
  | some lid => s.host.launches.find? (fun l => decide (l.lid = lid))
  | none => none

/-- A core is fenced (R796, R798, R817): it runs no ballast, and a task's status becomes CORE_FENCED whatever it held (R415). With a fallback table the
task waits for its map (R799); without one it ends, and the core enters C3. -/
def State.fenceCore (s : State) (u cause action : Nat) : State :=
  if s.fenced u then s
  else
    let s := (s.fenceRecord u cause St.coreFenced action).setFenced u true
    let s := s.setReg .dbgHalted u 0 0
    let tasked := (s.core u).tasked
    let fb := match s.launchOf u with
      | some l => decide (l.fallback ≠ 0)
      | none => false
    let s := (s.freeze u).dropBallast u
    if !tasked then s
    else
      let s := ((s.setReg .tstatusCode u 0 St.coreFenced).setReg .tstatusPc u 0 (s.pc u)).setReg .tstatusValid u 0 1
      if fb then s else (s.endTask u).enterC3 u

/-- CORE_FENCE (Table 17-3, R787, R796, R820): rows 0, 2, 3, 4 and, before READY, 5. The causes that a command of their own reports are not taken here.
A quad stop's parity error fences the four cores of the quad. -/
def execCoreFence (u : CoreId) (cause : Nat) (s : State) : Host.Outcome State Fault Refusal :=
  if s.fenced u then stay s
  else if cause = 0 then fin (s.fenceCore u 0 2)
  else if (cause = 2 ∨ cause = 3) ∧ s.fenceDue u cause = true then fin (s.fenceCore u cause 2)
  else if cause = 4 ∧ u.val < 128 then fin ((List.range 4).foldl (fun s i => s.fenceCore (u.val / 4 * 4 + i) 4 3) s)
  else if cause = 5 ∧ s.rd .kprReady = 0 then fin (s.fenceCore u 5 2)
  else stay s

/-- CROSSING_WATCHDOG (R796, Table 17-3 row 1, R812): a crossing of a core in C0 has accepted no handshake for 100 µs; a halted core answers. -/
def execCrossingWatchdog (u : CoreId) (s : State) : Host.Outcome State Fault Refusal :=
  if s.fenced u ∨ (s.core u).cstate ≠ 0 ∨ s.reg .dbgHalted u 0 = 1 then stay s else fin (s.fenceCore u 1 2)

/-- CORRECTED_REPORT (R789): the corrections of one unit in the 1 s interval that ends. -/
def execCorrectedReport (source unit : Nat) (s : State) : Host.Outcome State Fault Refusal :=
  if source = 1 then
    let n := (s.core unit).corrected
    if n = 0 ∨ 128 < unit then stay s
    else fin ((s.setCore unit { s.core unit with corrected := 0 }).coreRecord unit { cls := 0, source := 1, unit := unit, count := n })
  else
    let n := tabGet 0 (256 * source + unit) s.corr
    if n = 0 then stay s
    else fin (({ s with corr := tabSet 0 (256 * source + unit) 0 s.corr }).errRecord { cls := 0, source := source, unit := unit, count := n })

/-! ### Fallback maps (Table 09-3) -/

/-- Map `i` of a fallback table that has been read. -/
def mapBytes (t : Bytes) (i : Nat) : Bytes := sliceBytes t (256 * i) 256

/-- A map is valid: TRIGGER's bit 15, a listed KIND, at most 30 rewrites, reserved bytes 0. -/
def mapOk (m : Bytes) : Bool :=
  (field m 0 2).testBit 15 && decide (field m 2 1 ≤ 1) && decide (field m 5 1 ≤ 30) && decide (field m 8 8 = 0)

/-- The rewrites of a map. -/
def mapRewrites (m : Bytes) : List Nat := (List.range (field m 5 1)).map (fun i => field m (16 + 8 * i) 8)

/-- The map of a launch's table that names core `u` and has not been applied (R467, R471). -/
def State.findMap (s : State) (l : Launch) (u : Nat) : Option (Nat × Bytes) :=
  let x := s.readPa l.part l.fallback 1024
  if x.2.2 ≠ 0 then none
  else ((List.range 4).find? (fun i => let m := mapBytes x.1 i
                                       mapOk m && decide (field m 0 1 = s.chip) && decide (bits (field m 0 2) 8 7 = u) && !(l.maps.contains i))).map
    (fun i => (i, mapBytes x.1 i))

/-- The words of the item at cell `c` of queue `q` of a fenced core, as the debug path reads them (R468, R800), and whether one is poisoned. -/
def State.itemWords (s : State) (u q c words : Nat) : Bytes × Bool :=
  let a0 := s.cellAt u q c
  let a1 := s.cellAt u q (c + 1)
  let rd (a n : Nat) : Bytes := (List.range n).map (fun i => s.spdByte u (a + i))
  let psn (a n : Nat) : Bool := (List.range n).any (fun i => (s.core u).spdPsn.contains (a / 8 + i))
  (rd a0 (8 * min words 8) ++ rd a1 (8 * words - 8 * min words 8), psn a0 (min words 8) || psn a1 (words - min words 8))

/-- The unpopped items of a queue, oldest first, with their words. -/
def State.unpopped (s : State) (u q : Nat) : List (QItem × Bytes × Bool) :=
  (((s.core u).itemsOf q).foldl (fun (acc : List (QItem × Bytes × Bool) × Nat) it =>
    let x := s.itemWords u q acc.2 it.words
    (acc.1 ++ [(it, x.1, x.2)], acc.2 + it.cells)) ([], s.reg .qdHead u q)).1

/-- The queue that a map's rewrites give in place of queue `q` of core `u` (R468): that of the first rewrite of a send entry or group member of this chip
which targeted it, and which gives it one target (MODE 0) or a valid member; else the same queue of TARGET. Answers chip, core and queue. -/
def State.replacement (s : State) (u q : Nat) (rw : List Nat) (target : Nat × Nat) : Nat × Nat × Nat :=
  match rw.findSome? (fun e =>
      let v := bits e 24 40
      let w := bits e 8 7
      let i := bits e 15 4
      if bits e 0 8 ≠ s.chip then none
      else if bits e 19 2 = 1 ∧ s.reg .qsTchip w i = s.chip ∧ s.reg .qsTcore w i = u ∧ s.reg .qsTq w i = q ∧ s.reg .qsMode w i = 0 ∧ bits v 1 1 = 0 then
        some (bits v 2 8, bits v 10 7, bits v 17 4)
      else if bits e 19 2 = 2 then
        let x := s.qgMember w (i % 4) (bits e 21 3)
        if x.1 = s.chip ∧ x.2.1 = u ∧ x.2.2.1 = q ∧ bits v 22 1 = 1 then some (bits v 0 8, bits v 8 7, bits v 15 4) else none
      else none) with
  | some x => x
  | none => (target.1, target.2, q)

/-- Pushes an item again (R468): it keeps its producer, to which its credits return. -/
def State.repush (s : State) (chip core q srcChip src sub flight : Nat) (data : Bytes) (poison : Bool) : State :=
  let member := if srcChip = s.chip ∧ src ≤ 128 then (s.memberFor src sub chip core q).getD 0 else 0
  s.send { op := .item, srcChip := srcChip, src := src, sub := sub, dstChip := chip, dst := core, dsub := q, flight := flight,
           arg := if chip = s.chip then s.reg .qdGen core q else 0, data := data, poison := poison,
           tag := itemTag src sub member (cellsOf (data.length / 8)), addr := core }

/-- One rewrite: written here, or sent to the core that it names (R467). -/
def State.doRewrite (s : State) (e : Nat) : State :=
  if bits e 0 8 = s.chip then s.rewriteReg e
  else s.send { op := .rewrite, srcChip := s.chip, src := 184, dstChip := bits e 0 8, dst := 184, arg := e, addr := bits e 8 7 }

/-- The queue registers that a spare takes over from the core it replaces; its rings start empty. -/
def State.copyQueues (s : State) (u v : Nat) : State :=
  let cp (fs : List Fld) (n : Nat) (s : State) : State :=
    fs.foldl (fun s f => (List.range n).foldl (fun s i => s.setReg f v i (s.reg f u i)) s) s
  let s := cp [.qdEn, .qdBase, .qdCells, .qdLendEn, .qdLendCore, .qdLendQ, .qdLendMin, .qdFlight, .qsEn, .qsMode, .qsTchip, .qsTcore, .qsTq,
               .qsFlight] 16 s
  let s := cp [.qgMember] 32 s
  let s := (List.range 16).foldl (fun s q => ((s.setReg .qdHead v q 0).setReg .qdTail v q 0).setReg .qdDepth v q 0) s
  let s := s.setCore v { s.core v with items := [], pushers := [], resync := [] }
  (List.range 16).foldl (fun s n => s.setQuota v n (s.reg .qsQuota u n)) s

/-- The copy of SPARE (R801): every pair that is not OFF, with its poison marks, the program store, the descriptor slots and the microcode. -/
def State.copySpare (s : State) (u v : Nat) : State :=
  let s := s.toC0 v
  let pairs := (List.range 8).filter (fun p => decide (s.pairIs u p ≠ 0))
  let inside (row : Nat) : Bool := pairs.contains (row / 192)
  let c := s.core u
  let s := s.putPairs v pairs 3
  let d := s.core v
  let keep := d.spd.filter (fun x => !(inside (x.1 / 512)))
  let keepP := d.spdPsn.filter (fun w => !(inside (w / 64)))
  let s := s.setCore v { d with
    spd := (c.spd.filter (fun x => inside (x.1 / 512))).foldl (fun t x => tabSet 0 x.1 x.2 t) keep
    spdPsn := (c.spdPsn.filter (fun w => inside (w / 64))).foldl (fun t w => setAdd w t) keepP
    pstore := (List.range 4096).map (fun i => (i, s.pword u i)), desc := (List.range 16).map (fun i => (i, s.dslot u i))
    ucode := (List.range 1024).map (fun i => (i, s.uword u i)) }
  s.copyQueues u v

/-- The fenced core leaves its launch with no status of its own, and enters C3. -/
def State.leaveLaunch (s : State) (l : Launch) (u : Nat) : State :=
  let s := { s with host := { s.host with launches := s.host.launches.map (fun (x : Launch) =>
    if x.lid = l.lid then { x with cores := x.cores.filter (fun w => decide (w ≠ u)) } else x) } }
  (s.endTask u).enterC3 u

/-- TARGET takes the fenced core's place in its launch, and starts from that core's record (R799). -/
def State.joinLaunch (s : State) (l : Launch) (u v : Nat) : State :=
  let a := tabGet 0 u l.recs
  let s := s.startRecord v (s.readPa l.part a 1024).1
  let s := s.setCore v { s.core v with launch := some l.lid }
  { s with host := { s.host with launches := s.host.launches.map (fun (x : Launch) =>
      if x.lid = l.lid then { x with cores := setAdd v x.cores, recs := tabInsert v a (tabErase v x.recs) } else x) } }

/-- Notes that map `i` of a launch's table has been applied (R471). -/
def State.markMap (s : State) (l : Launch) (i : Nat) : State :=
  { s with host := { s.host with launches := s.host.launches.map (fun (x : Launch) => if x.lid = l.lid then { x with maps := x.maps ++ [i] } else x) } }

/-- The flight stops (R469): every core of the launch is halted with FLIGHT_LOST. -/
def State.flightStop (s : State) (l : Launch) (u : Nat) : State :=
  let s := s.fenceRecord u 0 St.flightLost 7
  let s := (s.forceLaunch l.lid St.flightLost).haltLaunch { l with cores := l.cores.filter (fun w => decide (w ≠ u)) } St.flightLost
  (s.endTask u).enterC3 u

/-- Applies map `i` (R467, R468, R470, R801): items are read first; a spare gets the core's state; every rewrite is written; the last popped barge and
the unpopped items are pushed again, a barge that was lent into the queue that lent it; under SPARE, TARGET starts. -/
def State.applyMap (s : State) (l : Launch) (u i : Nat) (m : Bytes) : State :=
  let rw := mapRewrites m
  let target := (field m 3 1, bits (field m 3 2) 8 7)
  let spare := decide (field m 2 1 = 0)
  let here := decide (target.1 = s.chip)
  let fl := s.coreFlight u
  let rest := (List.range 16).flatMap (fun q => (s.unpopped u q).map (fun x => (s.replacement u q rw target, x)))
  let bargeTo := (s.core u).barge.map (fun b => (if b.core = u then s.replacement u b.queue rw target else (s.chip, b.core, b.queue), b))
  let s := s.markMap l i
  let s := if spare && here then s.copySpare u target.2 else s
  let s := rw.foldl (fun s e => s.doRewrite e) s
  let s := match bargeTo with
    | some (t, b) => s.repush t.1 t.2.1 t.2.2 s.chip u 0 fl b.data b.poison
    | none => s
  let s := rest.foldl (fun s x => s.repush x.1.1 x.1.2.1 x.1.2.2 x.2.1.chip x.2.1.core x.2.1.entry fl x.2.2.1 x.2.2.2) s
  let s := if spare && here then s.joinLaunch l u target.2 else s
  (s.leaveLaunch l u).fenceRecord u 0 0 8

/-- The cases of R469; a TARGET of this chip that runs a task cannot take the stage either. -/
def State.mapLost (s : State) (u : Nat) (m : Bytes) (readable : Bool) : Bool :=
  let here := decide (field m 3 1 = s.chip)
  let v := bits (field m 3 2) 8 7
  (here && s.fenced v) || (here && decide (field m 2 1 = 0) && (s.core v).tasked) || !readable
    || (s.core u).barge.any (fun b => (field b.data 0 2).testBit 15)

/-- FALLBACK_MAP_APPLY (R467 to R471, R799, R818, R819): the fenced cores of a launch are handled in ascending order. `readable.arg` says whether the
core's scratchpad can be read, `readable.errs` which lines of the table were read with errors. A launch that already ends with a forced status takes no map. -/
def execFallbackMapApply (u : CoreId) (readable : Met Bool MemErr) (s : State) : Host.Outcome State Fault Refusal :=
  match s.launchOf u with
  | none => stay s
  | some l =>
    if !(s.fenced u) || decide (l.fallback = 0) || !(s.core u).tasked
        || l.cores.any (fun w => decide (w < u.val) && s.fenced w && (s.core w).tasked) then stay s
    else if !(s.canAccess Cls.mgmt 16 l.part l.fallback 1024) then s.awaitAccess Cls.mgmt 16 l.part l.fallback 1024
    else
      let s := (s.memErrs l.part l.fallback 1024 readable.errs).countLines Cls.mgmt 16 (lineCount l.fallback 1024)
      if l.forced ≠ 0 then fin ((s.endTask u).enterC3 u)
      else match s.findMap l u with
      | none => fin (s.flightStop l u)
      | some (i, m) => if s.mapLost u m readable.arg then fin (s.flightStop l u) else fin (s.applyMap l u i m)

/-! ### A chip out of service -/

/-- A DOWN notice that names chip `c`, to every other chip of the system but `c` (R803). -/
def State.downNotices (s : State) (c : Nat) : State :=
  ((List.range s.chips).filter (fun d => decide (d ≠ s.chip) && decide (d ≠ c))).foldl (fun s d => s.send
    { op := .keeper, srcChip := s.chip, src := 184, dstChip := d, dst := 184, code := 1, addr := c }) s

/-- CHIP_FAULT (R802, R803, Table 17-1): the fault of a memory controller, the host block, the Reservoir or the link switch. The partitions are
powered down, the launches end with CHIP_DOWN, and every chip is told while the link switch works; without the host block no status is written. -/
def execChipFault (source unit : Nat) (s : State) : Host.Outcome State Fault Refusal :=
  if !([2, 7, 8, 9].contains source) then stay s
  else
    let s := s.errRecord { cls := 5, source := source, unit := unit, code := St.chipDown, action := 6 }
    if s.env.chipOut then fin s
    else
      let s := { s with env := { s.env with chipOut := true } }
      let s := if source = 7 then { s with host := { s.host with packets := s.host.packets.map (fun p => { p with discard := true }) } } else s
      let s := s.host.launches.foldl (fun s l => s.haltLaunch l St.chipDown) s
      let s := s.stopAll
      fin (if source = 9 then s else s.downNotices s.chip)

/-- DOWN_NOTICE_TIMEOUT (R803, R642, R804): both links of a pair to a chip have been outside UP for 1 ms. -/
def execDownNoticeTimeout (chip : Nat) (s : State) : Host.Outcome State Fault Refusal :=
  if chip < s.chips ∧ chip ≠ s.chip ∧ (List.range 12).any (fun e => decide (s.linkPeer (2 * e) = chip) && !(s.linkUp (2 * e)) && !(s.linkUp (2 * e + 1))) = true then
    fin (((s.downNotices chip).setReach chip false).endTreeLost)
  else stay s

/-! ### Capture (R813, R814, R821) -/

/-- The trigger's condition holds. -/
def State.trigHit (s : State) (u : Nat) : Bool :=
  match s.reg .dbgTrigKind u 0 with
  | 1 => decide (s.pc u = s.reg .dbgTrigValue u 0 % 4096)
  | 2 => decide (s.reg .accSwaps u 0 = s.reg .dbgTrigValue u 0)
  | 3 => decide (s.reg .tstatusValid u 0 = 1)
  | _ => false

/-- CAPTURE_TRIGGER (R813, R815): in debug mode the trigger fires: HALT halts, COPY holds the sequencer and the arrays until its copy is written. -/
def execCaptureTrigger (u : CoreId) (s : State) : Host.Outcome State Fault Refusal :=
  let c := s.core u
  if s.reg .dbgEn u 0 = 0 ∨ s.fenced u = true ∨ c.tasked = false ∨ c.fired = true ∨ c.capture.isSome = true ∨ s.reg .dbgHalted u 0 = 1 ∨ s.trigHit u = false then stay s
  else
    let s := s.traceEv u 8 (s.reg .dbgTrigKind u 0) 0
    let s := s.setCore u { s.core u with fired := true }
    if s.reg .dbgTrigAction u 0 = 0 then fin ((s.setReg .dbgHalted u 0 1).dropBallast u)
    else fin (s.setCore u { s.core u with capture := some (s.reg .dbgTrigKind u 0) })

/-- The entries of a capture: the named set of each array of CMASK, in ascending order (R279, R280). -/
def State.captured (s : State) (u : Nat) : List AccEntry :=
  let live := s.reg .accLive u 0
  let p := if s.reg .dbgTrigSet u 0 = 0 then live else 1 - live
  (onesOf 4 (s.reg .dbgTrigCmask u 0)).flatMap (fun a => (List.range 8192).map (fun i => s.accGet u p a i))

/-- Writes a capture line by line: 8 entries of 8 bytes, poisoned where one of them is (Table 17-2). -/
def State.putCapture (s : State) (p a : Nat) (l : List (List AccEntry)) : State :=
  (l.foldl (fun (acc : State × Nat) es =>
    ((acc.1.serverWrite Cls.mgmt 16 p acc.2 (es.flatMap (fun e => toBytes 8 e.v)) (es.any (fun e => e.poison))).1, acc.2 + 64)) (s, a)).1

/-- CAPTURE_COPY_DONE (R813, R814): an area that fails translation in any part is not written at all and sets CAP_ERR; the core resumes. -/
def execCaptureCopyDone (u : CoreId) (s : State) : Host.Outcome State Fault Refusal :=
  if (s.core u).capture.isNone then stay s
  else
    let p := s.corePart u
    let a := s.reg .dbgCapAddr u 0
    let n := 65536 * countOnes 4 (s.reg .dbgTrigCmask u 0)
    let done := s.setCore u { s.core u with capture := none }
    if (linesOf a n).any (fun x => (s.xlate p x.1 true).isNone) then fin (((done.noteXlate p).setReg .dbgCapErr u 0 1).goOn u)
    else if !(s.canAccess Cls.mgmt 16 p a n) then s.awaitAccess Cls.mgmt 16 p a n
    else fin ((done.putCapture p a (chunks 8 4096 (s.captured u))).goOn u)

end Sys2Proof.Machine
end

