-- ==== Sys2Proof/Machine/Startup.lean ====
section
/-! DEFINITION. Start-up, supplies and chip power states (16_startup_resets_and_states.md R748 to R759, R769 to R772; 20_integration.md R883 to R889,
R895, R896): everything between the release of RESET_N and READY, STANDBY and OFF. Elapsed time is not modelled: each event is a command. -/

namespace Sys2Proof.Machine

/-- KPR_BOOT.STEP holds the latest step of Table 16-1 reached. -/
def State.stepTo (s : State) (n : Nat) : State := s.wr .kprStep (max (s.rd .kprStep) n)

/-! ### Supplies and the reset input (Table 20-9) -/

/-- POWER_ON_RESET (R748, R749, R786): the release of RESET_N with the supplies in limits runs steps 1 to 4 of Table 16-1; a fuse word that fails
its check stops start-up. The power drawn from then until READY is a breach (R75, R757). The loss of a module supply resets the whole module. -/
def execPowerOnReset (cause : PorCause) (fuseOk : Bool) (s : State) : Host.Outcome State Fault Refusal :=
  match cause with
  | .supplyLoss => fin s.porReset
  | .release =>
    if !s.env.pwrGood || !(s.env.resetLow || (decide (s.rd .kprStep = 1) && decide (s.rd .kprFuseFail = 0))) then stay s
    else
      let s := s.porReset
      let s := { s with env := { s.env with resetLow := false } }.breach
      fin (if fuseOk then s.stepTo 4 else s.wr .kprFuseFail 1)

/-- RESET_N_ASSERT (R748, R898): the module is held in reset. -/
def execResetNAssert (s : State) : Host.Outcome State Fault Refusal :=
  let s := s.porReset
  fin { s with env := { s.env with resetLow := true } }

/-- The carrier takes the rails away: what the die held is lost, and PWR_GOOD falls. -/
def State.railsOff (s : State) : State :=
  let s := s.porReset
  ({ s with env := { s.env with pwrGood := false } }).emit (.pin "PWR_GOOD" false)

/-- PWR_GOOD_LOSS (R884): PWR_GOOD falls, or REFCLK156 stops for more than 10 µs. -/
def execPwrGoodLoss (cause : SupplyLoss) (s : State) : Host.Outcome State Fault Refusal :=
  match cause with
  | .pwrGoodFell => if s.env.pwrGood then fin s.railsOff else stay s
  | .refclk156Stopped ns => if 10000 < ns then fin s.porReset else stay s

/-- PWR_EN_ASSERT (R883, Table 20-9). -/
def execPwrEnAssert (s : State) : Host.Outcome State Fault Refusal := fin { s with env := { s.env with pwrEn := true } }

/-- PWR_EN_DEASSERT (R885, R889, R905): the rails fall, and THERMTRIP_N is released. -/
def execPwrEnDeassert (s : State) : Host.Outcome State Fault Refusal :=
  if !s.env.pwrEn then stay s
  else
    let trip := s.env.thermTrip
    let s := if s.env.pwrGood then s.railsOff else s
    let s := { s with env := { s.env with pwrEn := false, thermTrip := false } }
    fin (if trip then s.emit (.pin "THERMTRIP_N" true) else s)

/-- PWR_GOOD_RISE (R883): the rails are up. -/
def execPwrGoodRise (s : State) : Host.Outcome State Fault Refusal :=
  if s.env.pwrEn && !s.env.pwrGood && !s.env.thermTrip then
    fin ({ s with env := { s.env with pwrGood := true } }.emit (.pin "PWR_GOOD" true))
  else stay s

/-- THERMTRIP (R889): a junction at 125 °C, or a stack at 105 °C. -/
def execThermtrip (junctionC hbmC : Nat) (s : State) : Host.Outcome State Fault Refusal :=
  if junctionC < 125 ∧ hbmC < 105 then stay s
  else
    let s := s.railsOff
    fin ({ s with env := { s.env with thermTrip := true } }.emit (.pin "THERMTRIP_N" false))

/-! ### Firmware -/

/-- An image that the ROM accepts (R750). -/
def State.accepts (s : State) (h : ImageHdr) : Bool :=
  decide (h.keyHash = s.fuses.keyHash) && h.sigOk && decide (s.rd .kprFuseSvn ≤ h.svn.toNat)

/-- An accepted image runs (step 5); `image` is what BOOT.IMAGE reports. -/
def State.runImage (s : State) (h : ImageHdr) (image : Nat) : State :=
  let v := h.version.toNat
  let s := ((s.wr .kprFwBuild (bits v 0 16)).wr .kprFwMinor (bits v 16 8)).wr .kprFwMajor (bits v 24 8)
  let s := ((s.wr .kprImageSvn h.svn.toNat).wr .kprImage image).stepTo 5
  { s with env := { s.env with firmware := true, recovery := false } }

/-- FIRMWARE_AUTHENTICATE (R750 to R752): image A, else image B, else AUTH_FAIL and the wait for a recovery image. -/
def execFirmwareAuthenticate (a b : ImageHdr) (s : State) : Host.Outcome State Fault Refusal :=
  if s.rd .kprStep ≠ 4 ∨ s.env.firmware = true ∨ s.rd .kprAuthFail = 1 then stay s
  else if s.accepts a then fin (s.runImage a 0)
  else if s.accepts b then fin (s.runImage b 1)
  else
    let s := s.wr .kprAuthFail 1
    fin { s with env := { s.env with recovery := true } }

/-- RECOVERY (R751, Table 20-14, R896): a part of a recovery image; with the last part the image is whole and is authenticated. A command
that comes while no recovery image is awaited is answered BUSY. -/
def execRecovery (last : Option ImageHdr) (s : State) : Host.Outcome State Fault Refusal :=
  if s.rd .kprStep < 4 then stay s
  else if !s.env.recovery then fin (s.emit (.mctp 6 1 []))
  else match last with
    | none => fin (s.emit (.mctp 6 0 []))
    | some h => if s.accepts h then fin ((s.runImage h 1).emit (.mctp 6 0 [])) else fin (s.emit (.mctp 6 3 []))

/-- A link that R38 holds down goes to HELD; a QUARANTINED one stays so (R636). -/
def State.holdDown (s : State) (l : Nat) : State := if s.linkHeld l ∧ s.reg .linkState 0 l ≠ 3 then s.leaveUp l 4 else s

/-- A write of KLK_TOPOLOGY (R41 to R47, Table 01-9): values first, then the checks of R43 and R45, then LOCKED,
with SLC_TREE computed for each scope (R584) and the links of dimensions that the system does not have held down (R38, R605). `who` is the
source that the log names. -/
def State.topology (s : State) (chip log2 : Option Nat) (lock : Bool) (who : Nat) : State :=
  if s.rd .klkLocked = 1 then s
  else
    let s := match chip with
      | some c => s.wr .klkChipNum c
      | none => s
    let s := match log2 with
      | some n => s.wr .klkTrayLog2 n
      | none => s
    if !lock then s
    else
      let c := s.rd .klkChipNum
      if c % 8 ≠ s.rd .klkStrapSlot ∨ 2 ^ s.rd .klkTrayLog2 ≤ c / 8 then s.gevent Gs.topology 9 0 0 who
      else
        let s := s.wr .klkLocked 1
        let s := s.wr .slcTreeChildren (sumOf (List.range 6) (fun k => (treeChildren c k).length * 2 ^ (4 * k)))
        let s := (List.range 24).foldl (fun s l => s.holdDown l) s
        if s.env.firmware then s.stepTo 6 else s

/-- TRAY_QUERY (R34, R41, Table 20-14): the controller's answer. -/
def execTrayQuery (tray log2 : Nat) (s : State) : Host.Outcome State Fault Refusal :=
  if !s.env.firmware || s.env.trayKnown || decide (31 < tray) || decide (5 < log2) then stay s
  else
    let s := { s with env := { s.env with trayKnown := true } }
    fin (s.topology (some (8 * tray + s.rd .klkStrapSlot)) (some log2) true 17)

/-- TRAY_QUERY_RESEND (R895, Table 20-14). -/
def execTrayQueryResend (s : State) : Host.Outcome State Fault Refusal :=
  if s.env.firmware && !s.env.trayKnown then fin (s.emit (.mctp 1 0 [])) else stay s

/-! ### Memory and READY -/

/-- The bin of every controller of a tier (R485). -/
def State.setBin (s : State) (tier2 : Bool) (bin : Nat) : State := (tierCtls tier2).foldl (fun s m => s.setReg .mcSpeed m 0 bin) s

/-- A tier is trained. -/
def State.trained (s : State) (tier2 : Bool) : Bool := if tier2 then s.env.trained2 else s.env.trained1

/-- A controller of the tier has failed training at every bin (R486). -/
def State.trainFailed (s : State) (tier2 : Bool) : Bool := (tierCtls tier2).any (fun m => decide (s.reg .mcTrainFail m 0 = 1))

/-- MEMORY_TRAINING_DONE (R754, R485, R486): steps 8 and 10. A tier with a controller that has failed at every bin stays untrained. -/
def execMemoryTrainingDone (tier2 : Bool) (result : TrainResult) (s : State) : Host.Outcome State Fault Refusal :=
  if !s.env.firmware || decide (s.rd .kprStep < 6) || s.trained tier2 || s.trainFailed tier2 then stay s
  else match result with
    | .ok bin =>
      let s := (s.setBin tier2 bin).stepTo (if tier2 then 10 else 8)
      fin { s with env := if tier2 then { s.env with trained2 := true } else { s.env with trained1 := true } }
    | .fallBack bin => fin (s.setBin tier2 bin)
    | .fail l => fin ((l.filter (fun m => (tierCtls tier2).contains m)).foldl (fun s m => s.setReg .mcTrainFail m 0 1) s)

/-- Zero lines over one controller's memory, poison cleared (R755, R490). -/
def Memory.zeroCtl (mm : Memory) (m : Nat) : Memory :=
  { cells := tabKeep (fun a => decide (ctlOf a ≠ m)) mm.cells, poison := mm.poison.filter (fun ln => decide (ctlOf (64 * ln) ≠ m)) }

/-- ZERO_FILL_DONE (R755, R758, R759): one controller's fill ends; the last one of a tier sets its flag. A fill that KEEP_MEM deferred must have
been started. -/
def execZeroFillDone (m : McId) (s : State) : Host.Outcome State Fault Refusal :=
  let tier2 := decide (8 ≤ m.val)
  if !(s.trained tier2) || (s.env.keptMem && !s.env.fillStarted) || s.env.filled.contains m.val then stay s
  else
    let s := { s with mem := s.mem.zeroCtl m, env := { s.env with filled := setAdd m.val s.env.filled } }
    if (tierCtls tier2).all (fun i => s.env.filled.contains i) then
      fin (if tier2 then (s.wr .kprZero2Done 1).stepTo 12 else (s.wr .kprZero1Done 1).stepTo 9)
    else fin s

/-- The links that are not held have ended their first attempt. -/
def State.linksTried (s : State) : Bool := (List.range 24).all (fun l => s.linkHeld l || s.env.linkTried.contains l)

/-- READY (R757, R759, Table 17-3 row 5): the memory is trained, the links have been tried and Tier 1 is zeroed, or kept. Every core is then in C1,
those that failed their self-test fenced; the ramp-close level is taken at the next epoch (R87). -/
def execReady (selfTestFailed : BitVec 128) (s : State) : Host.Outcome State Fault Refusal :=
  if s.env.firmware && s.env.trained1 && s.env.trained2 && !(s.trainFailed false) && !(s.trainFailed true) && s.linksTried && (decide (s.rd .kprZero1Done = 1) || s.env.keptMem)
      && decide (s.rd .kprReady = 0) then
    let s := (maskCores selfTestFailed.toNat).foldl (fun s u => s.fenceCore u 5 2) s
    let s := (s.wr .kprReady 1).stepTo 11
    fin { s with env := { s.env with configOpen := false, selfRefresh := false }, pow := { s.pow with closeWait := true } }
  else stay s

/-- The host block answers configuration requests at all (R753): step 2 has ended, or start-up stopped in it. -/
def State.hostUp (s : State) : Bool := !s.env.resetLow && (decide (2 ≤ s.rd .kprStep) || decide (s.rd .kprFuseFail = 1))

/-- CONFIG_RETRY_TIMEOUT (R753): 900 ms have passed without READY. -/
def execConfigRetryTimeout (s : State) : Host.Outcome State Fault Refusal :=
  if s.hostUp && decide (s.rd .kprReady = 0) then fin { s with env := { s.env with configOpen := true } } else stay s

/-- CONFIGURATION_REQUEST (R753). -/
def execConfigurationRequest (fn : FnId) (off : Nat) (s : State) : Host.Outcome State Fault Refusal :=
  if !s.hostUp then stay s
  else if decide (s.rd .kprReady = 1) || s.env.configOpen then fin (s.emit (.configDone fn off))
  else fin (s.emit (.configRetry fn off))

/-! ### STANDBY, RUN and OFF (Table 16-4) -/

/-- The condition of R769. A fenced core is in no state that holds it up. -/
def State.idleAll (s : State) : Bool := s.partsDown && (List.range 128).all (fun u => s.fenced u || decide (2 ≤ (s.core u).cstate))

/-- A request has been acted on. -/
def State.reqDone (s : State) : State := { s with env := { s.env with reqNew := false } }

/-- A STANDBY request (R769), and its answer's code: it is refused unless the chip is idle; accepted, it is carried out once power has ramped down to
within 120 W of the STANDBY level. -/
def State.askStandby (s : State) : State × Nat :=
  if s.rd .kprPstateState = 2 then ({ s with env := { s.env with runWait := false } }, 0)
  else if s.idleAll && !s.env.offIn then (({ s with env := { s.env with standbyIn := true } }).standbyStep, 0)
  else (s.wr .kprRefused 1, 2)

/-- A RUN request (R771, R77): the return from STANDBY waits for the pacing slot; a ramp toward STANDBY ends. -/
def State.askRun (s : State) : State × Nat :=
  if s.rd .kprPstateState = 2 && !s.env.off then ({ s with env := { s.env with runWait := true } }, 0) else (s.noStandby, 0)

/-- An OFF request (R772): every partition powers down with no grace and RETAIN = 0. -/
def State.askOff (s : State) : State × Nat :=
  if s.env.off || s.env.offIn then (s, 0)
  else
    ({ s with env := { s.env with offIn := true, standbyIn := false } }.stopAll, 0)

/-- The end of an OFF request (R772): the remaining cores are in C3, every link is held, and OFF_READY is set and reported. The step is a breach, also
from STANDBY (R75). -/
def State.offReady (s : State) : State :=
  let s := (List.range 128).foldl (fun s u => if s.fenced u || decide (2 ≤ (s.core u).cstate) then s else (s.killTask u).enterC3 u) s
  let s := if s.rd .kprPstateState = 2 then s.breach else s.enterStandby
  let s := (List.range 24).foldl (fun s l => (s.setReg .linkHold 0 l 1).leaveUp l 4) s
  let s := (s.wr .kprOffReady 1).emit (.mctp 7 0 [])
  { s with env := { s.env with off := true, offIn := false, runWait := false } }

/-- The register asks for power state `st`: KPR_PSTATE.REQ has been written and not yet acted on. -/
def State.regAsks (s : State) (st : Nat) : Bool := s.env.reqNew && decide (s.rd .kprPstateReq = st)

/-- A power-state command of the board management controller (Table 20-14, R896): before READY it is answered BUSY. -/
def State.mctpState (s : State) (ask : State → State × Nat) : Host.Outcome State Fault Refusal :=
  if s.rd .kprStep < 4 then stay s
  else if s.rd .kprReady = 0 then fin (s.emit (.mctp 3 1 []))
  else
    let r := ask s
    fin (r.1.emit (.mctp 3 r.2 []))

/-- STANDBY_REQUEST (R769). -/
def execStandbyRequest (src : ReqSrc) (s : State) : Host.Outcome State Fault Refusal :=
  match src with
  | .packet _ => stay s
  | .register => if s.regAsks 2 then fin s.reqDone.askStandby.1 else stay s
  | .mctp => s.mctpState State.askStandby

/-- RUN_REQUEST (R771): by KPR_PSTATE, over MCTP, or by a PART_CREATE or PART_START that arrives in STANDBY. -/
def execRunRequest (src : ReqSrc) (s : State) : Host.Outcome State Fault Refusal :=
  match src with
  | .packet pid => if s.wakeChip pid 0x10 || s.wakeChip pid 0x12 then fin s.askRun.1 else stay s
  | .register => if s.regAsks 0 then fin s.reqDone.askRun.1 else stay s
  | .mctp => s.mctpState State.askRun

/-- STANDBY_EXIT (R77, Table 16-4): at the chip's pacing slot. -/
def execStandbyExit (s : State) : Host.Outcome State Fault Refusal :=
  if s.env.runWait && decide (s.rd .kprPstateState = 2) && !s.env.off && s.inSlotStart then
    let s := s.wr .kprPstateState 0
    fin ({ s with env := { s.env with selfRefresh := false, runWait := false } }).breach
  else stay s

/-- OFF_REQUEST (R772, R904): the request starts the power-down; a further step completes it once every partition is FREE or STOPPED and power is
within 120 W of the STANDBY level (R769). A core that the Weir gives ballast stays in C0 until then (Table 02-4 code 0x3). -/
def execOffRequest (src : ReqSrc) (s : State) : Host.Outcome State Fault Refusal :=
  if s.env.offIn then
    if !s.partsDown then stay s
    else if (List.range 128).any (fun u => !(s.fenced u) && decide ((s.core u).cstate < 2) && decide (tabGet 0 u s.pow.ballast ≠ 0)) then
      fin (s.policyLoss 3 none)
    else if s.rd .kprPstateState = 2 ∨ s.nearStandby then fin s.offReady
    else stay s
  else match src with
    | .packet _ => stay s
    | .register => if s.regAsks 3 then fin s.reqDone.askOff.1 else stay s
    | .mctp => s.mctpState State.askOff

end Sys2Proof.Machine
end

