-- ==== Sys2Proof/Machine/Registers.lean ====
section
/-! DEFINITION. The control space (19_register_map.md): where each block lies and who reaches it (R835 to R841, R848 to R850), reads (R842, R843), and
writes with their legal ranges, staging, clamps and side effects (R10, R74, R774). -/

namespace Sys2Proof.Machine

/-! ### Places (Tables 19-1, 19-2 and 15-2) -/

/-- A place in a register block: the block, its ID, its instance and the byte offset within it. -/
structure Loc where
  blk  : Blk
  id   : Nat
  inst : Nat
  off  : Nat
deriving DecidableEq, Repr

/-- A block of a core window (Table 19-2). -/
def coreLoc (u o : Nat) : Option Loc :=
  if o < 0x100000 then some ⟨.acc, 0x10, u, o⟩
  else if o < 0x120000 then some ⟨.core, 0x11, u, o - 0x100000⟩
  else if o < 0x140000 then some ⟨.dbg, 0x12, u, o - 0x120000⟩
  else if o < 0x142000 then some ⟨.swg, 0x13, u, o - 0x140000⟩
  else if o < 0x143000 then some ⟨.seam, 0x14, u, o - 0x142000⟩
  else if o < 0x144000 then some ⟨.spd, 0x15, u, o - 0x143000⟩
  else if o < 0x145000 then some ⟨.dma, 0x16, u, o - 0x144000⟩
  else none

/-- A block of the chip region (Table 19-1). -/
def chipLoc (o : Nat) : Option Loc :=
  if o < 0x1000 then some ⟨.cmd, 1, 16, o⟩
  else if o < 0x11000 then some ⟨.cmd, 1, o / 0x1000 - 1, o % 0x1000⟩
  else if 0x100000 ≤ o ∧ o < 0x120000 then some ⟨.kpr, 2, 0, o - 0x100000⟩
  else if 0x120000 ≤ o ∧ o < 0x121000 then some ⟨.rsv, 3, 0, o - 0x120000⟩
  else if 0x121000 ≤ o ∧ o < 0x122000 then some ⟨.weir, 4, 0, o - 0x121000⟩
  else if 0x122000 ≤ o ∧ o < 0x123000 then some ⟨.bwr, 5, 0, o - 0x122000⟩
  else if 0x123000 ≤ o ∧ o < 0x124000 then some ⟨.part, 6, 0, o - 0x123000⟩
  else if 0x124000 ≤ o ∧ o < 0x125000 then some ⟨.mcMove, 7, 0, o - 0x124000⟩
  else if 0x140000 ≤ o ∧ o < 0x180000 then some ⟨.slc, 8, 0, o - 0x140000⟩
  else if 0x180000 ≤ o ∧ o < 0x184000 then some ⟨.klk, 9, 0, o - 0x180000⟩
  else if 0x200000 ≤ o ∧ o < 0x214000 then some ⟨.mc, 0xA, (o - 0x200000) / 0x1000, o % 0x1000⟩
  else if 0x300000 ≤ o ∧ o < 0x320000 then some ⟨.tow, 0xB, (o - 0x300000) / 0x8000, o % 0x8000⟩
  else none

/-- What an offset names (R835, R837, R838, R870). -/
def locate (who : Requester) (o : Nat) : Option Loc :=
  match who with
  | .vf n => if o < 0x1000 then some ⟨.cmd, 1, n, o⟩ else none
  | .trq => coreLoc 128 o
  | _ => if o < 0x4000000 then chipLoc o else if o < 0x10000000 then coreLoc ((o - 0x4000000) / 0x180000) ((o - 0x4000000) % 0x180000) else none

/-- An MSI-X table entry's function and byte, or the pending-bit array. -/
inductive MsixLoc where
  | entry (fn byte : Nat)
  | pba
deriving DecidableEq, Repr

def msixLoc (who : Requester) (o : Nat) : Option MsixLoc :=
  match who with
  | .vf n => if 0x80000 ≤ o ∧ o < 0x80100 then some (.entry n (o - 0x80000)) else if 0x90000 ≤ o ∧ o < 0x90008 then some .pba else none
  | .trq => none
  | _ => if 0x20000 ≤ o ∧ o < 0x20400 then some (.entry 16 (o - 0x20000)) else if 0x21000 ≤ o ∧ o < 0x21008 then some .pba else none

/-- The source numbers of a log entry (Table 19-6). -/
def sourceOf : Requester → Nat
  | .vf n => n
  | .pf => 16
  | .keeper => 17
  | .trq => 18

/-! ### Stores that are no register fields -/

/-- The windows of stores: an element's place and width in bytes. -/
inductive Win where
  | pstore
  | desc
  | ucode
  | accDbg
  | towProg
  | errec
  | trace
deriving DecidableEq, Repr

def Win.bytes : Win → Nat
  | .pstore => 16
  | .desc => 64
  | .ucode => 4
  | .accDbg => 8
  | .towProg => 4
  | .errec => 64
  | .trace => 16

/-- The window that a place lies in, with the byte offset within the window. -/
def Loc.win (l : Loc) : Option (Win × Nat) :=
  match l.blk with
  | .core => if 0x10000 ≤ l.off then some (.pstore, l.off - 0x10000) else none
  | .swg => if l.off < 0x400 then some (.desc, l.off) else if 0x1000 ≤ l.off then some (.ucode, l.off - 0x1000) else none
  | .acc => if 0x80000 ≤ l.off then some (.accDbg, l.off - 0x80000) else none
  | .tow => if 0x1000 ≤ l.off ∧ l.off < 0x5000 then some (.towProg, l.off - 0x1000) else none
  | .kpr => if 0x10000 ≤ l.off then some (.errec, l.off - 0x10000) else none
  | .dbg => if 0x10000 ≤ l.off ∧ l.off < 0x14000 then some (.trace, l.off - 0x10000) else none
  | _ => none

/-- Element `i` of a window (R308, R309, R793; Tables 04-6, 05-7, 14-6, 17-9). -/
def State.winVal (s : State) (w : Win) (u i : Nat) : Nat :=
  match w with
  | .pstore => s.pword u i
  | .desc => s.dslot u i
  | .ucode => s.uword u i
  | .accDbg =>
    if s.reg .dbgEn u 0 = 1 ∧ s.reg .dbgHalted u 0 = 1 then
      let live := s.reg .accLive u 0
      (s.accGet u (if i / 8192 % 2 = 0 then live else 1 - live) (i / 16384) (i % 8192)).v
    else 0
  | .towProg => s.towWord u i
  | .errec => match s.errs.find? (fun r => decide (r.slot = i)) with
    | some r => ofBytes (r.toBytes s.chip)
    | none => match s.errOld.find? (fun x => decide (x.1 = i)) with
      | some x => x.2
      | none => (Config.freeErrec i).toNat
  | .trace =>
    if s.reg .coreRun u 0 = 1 then 0
    else match (s.core u).trace.find? (fun x => decide (x.1 = i)) with
      | some x => x.2
      | none => (Config.freeTrace u i).toNat

/-- Bytes [b, b + size) of a window. -/
def State.winRead (s : State) (w : Win) (u b size : Nat) : Nat :=
  let n := w.bytes
  let v := s.winVal w u (b / n)
  if n < size then v + s.winVal w u (b / n + 1) * 2 ^ (8 * n) else bits v (8 * (b % n)) (8 * size)

/-- Writes an element; windows that only show something ignore it. -/
def State.setWin (s : State) (w : Win) (u i v : Nat) : State :=
  match w with
  | .pstore => s.setPword u i v
  | .desc => s.setDslot u i v
  | .ucode => s.setUword u i v
  | .towProg => let k := s.tow u
                s.setTow u { k with prog := tabInsert i v (tabErase i k.prog) }
  | _ => s

def State.winWrite (s : State) (w : Win) (u b size data : Nat) : State :=
  let n := w.bytes
  let i := b / n
  if n < size then (s.setWin w u i (bits data 0 (8 * n))).setWin w u (i + 1) (bits data (8 * n) (8 * n))
  else s.setWin w u i (putBits (s.winVal w u i) (8 * (b % n)) (8 * size) data)

/-! ### Fields under an access -/

/-- The registers of a YZ2-KB block, which no die has (20_integration.md "Programming"). -/
def kbFields : List Fld := [.kbChipNum, .kbCoreNum, .kbPart, .kbSlcBase, .kbSlcSize, .kbIsland, .kbProtoFault, .kbPort, .kbEpochLost]

/-- The fields of a place's block. -/
def Loc.fields (l : Loc) : List Fld := if l.inst = 128 then l.blk.fields else l.blk.fields.filter (fun f => !(kbFields.contains f))

/-- The copies of a field with bits in the access. -/
def Loc.under (l : Loc) (size : Nat) : List (Fld × Nat) :=
  l.fields.flatMap (fun f => (f.copiesAt l.off size).map (fun i => (f, i)))

/-- The register that holds copy `i` of a field overlaps the access. -/
def Fld.overlapsReg (f : Fld) (i off size : Nat) : Bool :=
  decide (f.regOff i < off + size) && decide (off < f.regOff i + f.regBytes)

/-- Some table assigns the access (R840). -/
def Loc.assigned (l : Loc) (size : Nat) : Bool :=
  l.win.isSome || l.fields.any (fun f =>
    (if f.spec.stride = 0 then [l.off / 0x100 * 8 + (l.off % 0x100 - 0x10) / 8]
     else if f.spec.count = 1 then [0]
     else (List.range (8 / f.spec.stride + 2)).map (fun j => (l.off - f.spec.off) / f.spec.stride + j - 1)).any (fun i =>
      decide (i < f.spec.count) && f.overlapsReg i l.off size))

/-- The first bit of a field that the access covers, how many it covers, and where they lie in the data. -/
def Loc.span (l : Loc) (size : Nat) (f : Fld) (i : Nat) : Nat × Nat × Nat :=
  let p := f.bitPos i
  let a := 8 * l.off
  let lo := max p a
  let hi := min (p + f.spec.w) (a + 8 * size)
  (lo - p, hi - lo, lo - a)

/-- A field's value with the covered bits taken from the data (R841). -/
def Loc.merge (l : Loc) (size data : Nat) (f : Fld) (i base : Nat) : Nat :=
  let x := l.span size f i
  putBits base x.1 x.2.1 (bits data x.2.2 x.2.1)

/-- The ones that the data carries in a field's covered bits. -/
def Loc.ones (l : Loc) (size data : Nat) (f : Fld) (i : Nat) : Nat := l.merge size data f i 0

/-! ### Reads -/

/-- KPR_COMMIT.PENDING (Table 16-6). -/
def State.pendingBits (s : State) : Nat :=
  let differs (f : Fld) : Bool := (List.range f.spec.count).any (fun i => decide (tabGet (s.reg f 0 i) (f.key 0 i) s.pend ≠ s.reg f 0 i))
  let has (l : List Fld) : Nat := b2n (l.any differs)
  has (Blk.fields .rsv) + 2 * has (Blk.fields .weir) + 4 * has (Blk.fields .bwr) + 8 * has [.partFcap]

/-- What a field reads as. MC_STATUS.HOT is 0 until an epoch has passed since reset, then free (DESIGN CHOICE, log 113). -/
def State.fieldRead (s : State) (f : Fld) (inst i : Nat) : Nat :=
  match f with
  | .kprIntStatus => s.summary
  | .kprCommitPending => s.pendingBits
  | .mcHot => if s.pow.epoch = 0 then 0 else b2n (Config.memoryHot inst s.pow.epoch s.free)
  | _ => s.reg f inst i

/-- The value of a read of registers (R7, R12, R842). -/
def State.regRead (s : State) (l : Loc) (size : Nat) : Nat :=
  sumOf (l.under size) (fun x => let y := l.span size x.1 x.2
                                 if x.1.spec.acc = .wo then 0 else bits (s.fieldRead x.1 l.inst x.2) y.1 y.2.1 * 2 ^ y.2.2)

/-- Clears the RC fields that a read returned whole (R843). -/
def State.clearRead (s : State) (l : Loc) (size : Nat) : State :=
  (l.under size).foldl (fun s x =>
    if x.1.spec.acc = .rc ∧ (l.span size x.1 x.2).2.1 = x.1.spec.w then s.setReg x.1 l.inst x.2 0 else s) s

/-- A global-status event of an access (R854), or the YZ2-KB block's STAT event (Table 20-7). -/
def State.locEvent (s : State) (l : Loc) (ev src : Nat) : State :=
  if l.inst = 128 then s.emit (.kbStat (4 + ev * 16 + l.off * 2 ^ 24)) else s.gevent ev l.id l.inst l.off src

/-- UNMAPPED (R696, R839, R840). An access outside every block has no block and no instance; the log's fields then hold free values. -/
def State.unmapped (s : State) (who : Requester) (off : Nat) : State :=
  match locate who off with
  | some l => s.locEvent l Gs.unmapped (sourceOf who)
  | none =>
    if who = .trq then s.emit (.kbStat (4 + Gs.unmapped * 16 + off * 2 ^ 24))
    else
      let (b, s) := s.draw64
      let (i, s) := s.draw64
      s.gevent Gs.unmapped b i off (sourceOf who)

/-- The requester's accesses arrive at all: a host's from READY on, or to KPR in the fallback of R753; the Keeper's once its ROM runs. -/
def State.reaches (s : State) (who : Requester) : Bool :=
  match who with
  | .keeper => decide (4 ≤ s.rd .kprStep)
  | .trq => !s.kb.rstLow
  | _ => s.hostUp && (decide (s.rd .kprReady = 1) || (s.env.configOpen && decide (who = .pf)))

/-- What an offset names for a requester now (R753). -/
def State.place (s : State) (who : Requester) (off : Nat) : Option Loc :=
  match locate who off with
  | some l => if decide (s.rd .kprReady = 0) && decide (who = .pf) && !(decide (l.blk = .kpr)) then none else some l
  | none => none

/-- An access of a legal size and alignment (R839). -/
def sizeOk (off size : Nat) : Bool := (decide (size = 4) || decide (size = 8)) && decide (off % size = 0)

/-- An access that reaches a core island: a C1 island wakes (R845). -/
def State.wakeFor (s : State) (l : Loc) : State :=
  if l.blk.ofCore ∧ (s.core l.inst).cstate = 1 then s.toC0 l.inst else s

/-- The island of a place answers ISLAND_OFF (R845). -/
def State.locOff (s : State) (l : Loc) : Bool := l.blk.ofCore && s.islandOff l.inst

/-- The read of a MSI-X structure. -/
def State.msixRead (s : State) (m : MsixLoc) (size : Nat) : Nat :=
  match m with
  | .entry fn b => bits (tabGet 0 (64 * fn + b / 16) s.host.msix) (8 * (b % 16)) (8 * size)
  | .pba => 0

/-- A read: the state after it, the value, and the status of Table 20-3's TRS (R839 to R845, R870). -/
def State.controlRead (s : State) (who : Requester) (off size : Nat) : State × Nat × Nat :=
  if !(sizeOk off size) then (s.unmapped who off, 0, 4)
  else match msixLoc who off with
    | some m => if s.rd .kprReady = 1 then (s, s.msixRead m size, 0) else (s.unmapped who off, 0, 4)
    | none => match s.place who off with
      | none => (s.unmapped who off, 0, 4)
      | some l =>
        if !(l.assigned size) then (s.locEvent l Gs.unmapped (sourceOf who), 0, 4)
        else if s.locOff l then (s.locEvent l Gs.islandOff (sourceOf who), 0, 5)
        else
          let s := s.wakeFor l
          match l.win with
          | some (w, b) =>
            let hide := decide (w = .accDbg) && !(decide (s.reg .dbgEn l.inst 0 = 1) && decide (s.reg .dbgHalted l.inst 0 = 1))
            (if hide then s.locEvent l Gs.debugOnly (sourceOf who) else s, s.winRead w l.inst b size, 0)
          | none => (s.clearRead l size, s.regRead l size, 0)

/-- Answers an access: a YZ2-KB block's on TRS. -/
def State.reply (s : State) (who : Requester) (off size value status : Nat) : State :=
  if who = .trq then s.emit (.kbTrs (status + value * 2 ^ 16)) else s.emit (.readData who off size value)

/-- REGISTER_READ (R839 to R846). -/
def execRegisterRead (who : Requester) (off size : Nat) (s : State) : Host.Outcome State Fault Refusal :=
  if !(s.reaches who) then stay s
  else
    let r := s.controlRead who off size
    fin (r.1.reply who off size r.2.1 r.2.2)

/-! ### Staged registers (R101, R554, R774) -/

/-- A staged field. -/
def Fld.staged : Fld → Bool
  | .rsvPeakW => true
  | .rsvSustainW => true
  | .rsvDepth => true
  | .rsvShareWeight => true
  | .weirUpWMs => true
  | .weirDownWMs => true
  | .weirMinW => true
  | .weirThrottleC => true
  | .weirPaceSrc => true
  | .weirMaster => true
  | .weirFreeW => true
  | .weirOffset => true
  | .weirStride => true
  | .classMode => true
  | .classPrio => true
  | .classBudget => true
  | .classMidAt => true
  | .classHighAt => true
  | .classCritAt => true
  | .partFcap => true
  | _ => false

/-- The pending copy of a field. -/
def State.pending? (s : State) (f : Fld) (i : Nat) : Nat := tabGet (s.reg f 0 i) (f.key 0 i) s.pend

/-- The value that the hardware limits of Table 02-2 store (R74). -/
def State.clamp (s : State) (f : Fld) (v : Nat) : Nat :=
  match f with
  | .rsvPeakW => min v s.fuses.peakMaxW
  | .rsvSustainW => min v (s.pending? .rsvPeakW 0)
  | .rsvDepth => min v s.fuses.depthMax
  | .weirUpWMs => max s.fuses.upMin (min v s.fuses.upMax)
  | .weirDownWMs => max s.fuses.downMin (min v s.fuses.downMax)
  | _ => v

/-- A write to a staged field's pending copy; a clamped one sets WEIR_STATUS.CLAMPED. The copy is listed where it differs from the value in effect,
or from a captured value that will replace that one (R778). -/
def State.stage (s : State) (f : Fld) (i v : Nat) : State :=
  let c := s.clamp f v
  let s := if c ≠ v then s.wr .weirClamped 1 else s
  let k := f.key 0 i
  let rest := tabErase k s.pend
  { s with pend := if c = s.reg f 0 i ∧ s.capt.all (fun x => decide (x.1 ≠ k)) = true then rest else tabInsert k c rest }

/-- A write of 1 to KPR_COMMIT.GO, or a COMMIT packet (R775, R781). After the close of the request window the next epoch is computed again with the
captured values (R103). -/
def State.commitGo (s : State) : State :=
  let s := if s.rd .kprCommitGo = 1 then s.wr .kprCommitMerged 1 else s
  { s.wr .kprCommitGo 1 with capt := s.pend }.recompute

/-! ### Legal values (R10) -/

/-- The field's table lists the value as legal. -/
def State.legal (s : State) (f : Fld) (inst i v : Nat) : Bool :=
  match f with
  | .weirThrottleC => decide (70 ≤ v) && decide (v ≤ 105)
  | .weirPaceSrc => decide (v ≤ 1) || (decide (v = 2) && !s.fuses.paceLock)
  | .spdPattern => decide (v ≠ 3)
  | .spdPairState => (List.range 8).all (fun p => decide (bits v (2 * p) 2 ≠ 2))
  | .qsQuota => decide (1 ≤ v) && decide (v ≤ 4096)
  | .hqsQuota => decide (1 ≤ v) && decide (v ≤ 4096)
  | .hqsMode => decide (v = 0)
  | .towRingSizeLog2 => decide (v ≤ 12)
  | .towRingBase => decide (v % 128 = 0)
  | .cmdSqSizeLog2 => decide (4 ≤ v) && decide (v ≤ 16)
  | .cmdCqSizeLog2 => decide (4 ≤ v) && decide (v ≤ 16)
  | .cmdSqTail => decide (v < 2 ^ s.reg .cmdSqSizeLog2 inst i)
  | .cmdAperture => decide (inst = 16) || decide (v + 16 ≤ 1024)
  | .notifyVec => decide (inst = 16) || decide (v < 16)
  | .kprResetKind => decide (1 ≤ v) && decide (v ≤ 4)
  | .kprPstateReq => decide (v ≠ 1)
  | .kprUeFence => decide (v ≠ 0)
  | .kprCeFence => decide (v ≠ 0)
  | .kprTelemSizeLog2 => decide (8 ≤ v) && decide (v ≤ 20)
  | .dbgCapAddr => decide (v % 64 = 0)
  | .dbgPmcSel => decide (v < 0x10)
  | .kbSlcSize => decide (v ≤ 16384)
  | _ => true

/-! ### Effects of single fields -/

/-- HOLD of a link (R605): set, the link is HELD; cleared, it is released to train. A QUARANTINED link stays so (R636). -/
def State.putHold (s : State) (l v : Nat) : State :=
  if s.reg .linkHold 0 l = v then s
  else
    let s := s.setReg .linkHold 0 l v
    if s.reg .linkState 0 l = 3 then s else if v = 1 then s.leaveUp l 4 else s.trainStart l

/-- RETRAIN (R604): the link trains from step 1. -/
def State.retrainLink (s : State) (l : Nat) : State :=
  if s.reg .linkState 0 l = 3 then s
  else
    let s := s.leaveUp l 0
    (s.setLink l { s.link l with attempts := 0 }).trainStart l

/-- UNQUAR (R636). -/
def State.unquarLink (s : State) (l : Nat) : State :=
  if s.reg .linkState 0 l = 3 then
    let s := s.leaveUp l 0
    (s.setLink l { s.link l with attempts := 0 }).trainStart l
  else s

/-- GO of a tier mover (R514). -/
def State.goMove (s : State) (m : Nat) : State :=
    let p := s.reg .movePartition 0 m
    let src := s.reg .moveSrc 0 m
    let dst := s.reg .moveDst 0 m
    if s.moveBad p src dst then s.setReg .moveCode 0 m St.moveBad else s.startMove m p src dst none

/-- DBG_CTRL.EN (R809): only the PF, or the controller of a YZ2-KB block, and only while the sequencer does not run. -/
def State.putDbgEn (s : State) (l : Loc) (who : Requester) (v : Nat) : State :=
  if s.reg .dbgEn l.inst 0 = v then s
  else if (who = .pf ∨ who = .trq) ∧ s.reg .coreRun l.inst 0 = 0 then s.setReg .dbgEn l.inst 0 v
  else s.locEvent l Gs.busyWrite (sourceOf who)

/-- HALT, STEP and RESUME act in debug mode (R810). -/
def State.debugHalt (s : State) (u : Nat) : State := if s.reg .dbgEn u 0 = 1 then (s.setReg .dbgHalted u 0 1).dropBallast u else s
def State.debugStep (s : State) (u : Nat) : State :=
  if s.reg .dbgEn u 0 = 1 ∧ s.reg .dbgHalted u 0 = 1 then ((s.setCore u { s.core u with stepOne := true }).setReg .dbgHalted u 0 0).goOn u else s
def State.debugResume (s : State) (u : Nat) : State :=
  if s.reg .dbgEn u 0 = 1 ∧ s.reg .dbgHalted u 0 = 1 then ((s.setCore u { s.core u with stepOne := false }).setReg .dbgHalted u 0 0).goOn u else s

/-- CQ_HEAD (R705, R741): entries are freed. -/
def State.putCqHead (s : State) (f r v : Nat) : State :=
  let old := s.reg .cmdCqHead f r
  let size := 2 ^ s.reg .cmdCqSizeLog2 f r
  let d := (s.reg .cmdCqTail f r + 65536 - v) % 65536
  let full := decide (d = size) || (decide (size = 65536) && decide (d = 0) && s.cqFull f r && decide (v = old))
  (s.setReg .cmdCqHead f r v).noteFull f r full

/-- A legal value written to an RW field. -/
def State.putRw (s : State) (l : Loc) (who : Requester) (f : Fld) (i v : Nat) : State :=
  match f with
  | .spdPairState => (List.range 8).foldl (fun s p => s.askPair l.inst p (bits v (2 * p) 2)) s
  | .qsQuota => s.setQuota l.inst i v
  | .hqsQuota => (s.setReg .hqsQuota l.inst i v).setReg .hqsCredits l.inst i v
  | .kprPstateReq => let s := s.wr .kprPstateReq v
                     { s with env := { s.env with reqNew := true } }
  | .dbgEn => s.putDbgEn l who v
  | .dbgTrigKind => (s.setReg f l.inst i v).setCore l.inst { s.core l.inst with fired := false }
  | .dbgTrigValue => (s.setReg f l.inst i v).setCore l.inst { s.core l.inst with fired := false }
  | .dbgPmcSel => (s.setReg f l.inst i v).setReg .dbgPmc l.inst i 0
  | .cmdCqHead => s.putCqHead l.inst i v
  | .linkHold => s.putHold i v
  | .kprTelemEn => let s := if s.rd .kprTelemEn = 0 ∧ v = 1 then s.wr .kprTelemTail 0 else s
                   s.wr .kprTelemEn v
  | .klkReach => (s.setReg .klkReach 0 i v).endTreeLost
  | _ => if f.staged then s.stage f i v else s.setReg f l.inst i v

/-- Ones written to a W1S field (Table 00-3). -/
def State.putW1s (s : State) (f : Fld) (i v : Nat) : State :=
  if v = 0 then s
  else match f with
    | .kprCommitGo => s.commitGo
    | .kprResetGo =>
      if s.rd .kprResetGo = 1 ∨ s.rd .kprResetKind = 0 then s
      else
        let s := s.wr .kprResetGo 1
        { s with env := { s.env with resetDone := 0 } }
    | .kprMemzeroGo =>
      let s := s.wr .kprMemzeroGo 1
      if s.env.keptMem then { s with env := { s.env with fillStarted := true } } else s
    | .kprFenced => (onesOf 128 v).foldl (fun s u => s.fenceCore u 6 2) s
    | .moveGo => s.goMove i
    | .kprExpertLock => s.wr .kprExpertLock (s.rd .kprExpertLock ||| v)
    | _ => s

/-- A write of 1 to a WO field. -/
def State.putWo (s : State) (l : Loc) (f : Fld) (i v : Nat) : State :=
  if v = 0 then s
  else match f with
    | .linkRetrain => s.retrainLink i
    | .linkUnquar => s.unquarLink i
    | .dbgHalt => s.debugHalt l.inst
    | .dbgStep => s.debugStep l.inst
    | .dbgResume => s.debugResume l.inst
    | _ => s

/-- The value that a write to a field starts from: its pending copy where it is staged. -/
def State.base (s : State) (l : Loc) (f : Fld) (i : Nat) : Nat := if f.staged then s.pending? f i else s.reg f l.inst i

/-- A write of ones clears the field. -/
def Fld.clears (f : Fld) : Bool := decide (f.spec.acc = .w1c) || decide (f.spec.acc = .int)

/-- A write to one field under the access (R10, R12). -/
def State.putField (s : State) (l : Loc) (who : Requester) (size data : Nat) (f : Fld) (i : Nat) : State :=
  let ones := l.ones size data f i
  match f.spec.acc with
  | .ro => s
  | .rc => s
  | .rw =>
    let v := l.merge size data f i (s.base l f i)
    if s.legal f l.inst i v then s.putRw l who f i v else s.locEvent l Gs.illegal (sourceOf who)
  | .w1c => let v := s.reg f l.inst i
            s.setReg f l.inst i (v - (v &&& ones))
  | .w1s => s.putW1s f i ones
  | .wo => s.putWo l f i ones
  | .int => { s with env := { s.env with intSticky := s.env.intSticky - (s.env.intSticky &&& ones) } }

/-! ### Registers that are written as a whole -/

/-- QD_n while EN is 0 (R464, Table 09-5): a ring field with no legal value stays as it is; the lend fields are checked. -/
def State.putQd (s : State) (l : Loc) (who : Requester) (size data q : Nat) : State :=
  let u := l.inst
  let m (f : Fld) : Nat := l.merge size data f q (s.reg f u q)
  let touched (f : Fld) : Bool := (l.under size).contains (f, q)
  let r := ringTake 1 (s.reg .qdBase u q) (s.reg .qdCells u q) (m .qdBase) (m .qdCells)
  let s1 := if touched .qdEn then s.setReg .qdEn u q (m .qdEn) else s
  let s1 := if touched .qdBase || touched .qdCells then
      (let s2 := (s1.setReg .qdBase u q r.1).setReg .qdCells u q r.2.1
       if r.2.2 then s2.locEvent l Gs.illegal (sourceOf who) else s2) else s1
  let s1 := if touched .qdLendEn then s1.setLend u q (m .qdLendEn) (m .qdLendCore) (m .qdLendQ) (m .qdLendMin) l.off (sourceOf who) else s1
  if touched .qdFlight then s1.setReg .qdFlight u q (m .qdFlight) else s1

/-- SLC_PART_n (R592): a range that overlaps another enabled one, or runs past the last sluice, is not taken. -/
def State.putSlcPart (s : State) (l : Loc) (who : Requester) (size data p : Nat) : State :=
  let m (f : Fld) : Nat := l.merge size data f p (s.reg f 0 p)
  let touched (f : Fld) : Bool := (l.under size).contains (f, p)
  let b := m .slcPartBase
  let n := m .slcPartSize
  let bad := decide (16384 < b + n) || (List.range 16).any (fun q => decide (q ≠ p) && decide (s.reg .slcPartEn 0 q = 1)
    && decide (0 < n) && decide (0 < s.reg .slcPartSize 0 q) && overlaps (b, n) (s.reg .slcPartBase 0 q, s.reg .slcPartSize 0 q))
  let s := if bad then s.locEvent l Gs.illegal (sourceOf who) else (s.setReg .slcPartBase 0 p b).setReg .slcPartSize 0 p n
  let s := if touched .slcPartEn then s.setReg .slcPartEn 0 p (m .slcPartEn) else s
  if touched .slcPartFlight then s.setReg .slcPartFlight 0 p (m .slcPartFlight) else s

/-- SLC_SLUICE_i (R591, R571, R572): a RESET with the count, then an ARM with the control bits, in one step. -/
def State.putSluice (s : State) (i v : Nat) : State :=
  let n := bits v 0 48
  let s := if s.resetBad i n then s.slcRefuse i else (s.setCount i n).setCtl i (putBits (s.slcCtl i) 8 2 0)
  let ctl := putBits (s.slcCtl i) 0 8 (bits v 48 8)
  let s := if s.armBad ctl (s.slcCount i) then s.slcRefuse i else s.setCtl i ctl
  s.slcAfter i Sop.arm

/-- The urgency points of a class (R542); classes 4 to 7 have none. -/
def State.putPoints (s : State) (l : Loc) (who : Requester) (size data c : Nat) : State :=
  if 4 ≤ c then s
  else
    let m (f : Fld) : Nat := l.merge size data f c (s.pending? f c)
    let touched := (l.under size).any (fun x => decide (x.1 = .classMidAt) || decide (x.1 = .classCritAt))
    if !touched then s
    else if m .classMidAt < m .classHighAt ∧ m .classHighAt < m .classCritAt then
      ((s.stage .classMidAt c (m .classMidAt)).stage .classHighAt c (m .classHighAt)).stage .classCritAt c (m .classCritAt)
    else s.locEvent l Gs.illegal (sourceOf who)

/-- HQS_i word 0 (R724, Table 15-11): the entry stays as it is where the write names a target outside the partition. -/
def State.hqsBad (s : State) (l : Loc) (size data i : Nat) : Bool :=
  let m (f : Fld) : Nat := l.merge size data f i (s.reg f l.inst i)
  decide (m .hqsTchip ≠ s.chip) || decide (s.partOf (m .hqsTcore) ≠ some l.inst)

/-- KLK_TOPOLOGY (R41 to R47). -/
def State.putTopology (s : State) (l : Loc) (who : Requester) (size data : Nat) : State :=
  let touched (f : Fld) : Bool := (l.under size).contains (f, 0)
  let n := l.merge size data .klkTrayLog2 0 (s.rd .klkTrayLog2)
  let bad := touched .klkTrayLog2 && decide (5 < n) && decide (s.rd .klkLocked = 0)
  let s := if bad then s.locEvent l Gs.illegal (sourceOf who) else s
  s.topology (if touched .klkChipNum then some (l.merge size data .klkChipNum 0 (s.rd .klkChipNum)) else none)
    (if touched .klkTrayLog2 && !bad then some n else none) (decide (l.ones size data .klkLocked 0 ≠ 0)) (sourceOf who)

/-! ### Writes that are discarded -/

/-- Fields that are protected by themselves (R739, R858): the rest of the write takes effect. -/
def State.shutField (s : State) (f : Fld) (i : Nat) : Bool :=
  match f with
  | .partQuads => decide (s.reg .partState 0 i ≠ 0)
  | .winV => decide (s.reg .partState 0 (i / 8) ≠ 0)
  | .winBase => decide (s.reg .partState 0 (i / 8) ≠ 0)
  | .winPages => decide (s.reg .partState 0 (i / 8) ≠ 0)
  | .partLinkqReq => decide (s.reg .partState 0 i ≠ 0)
  | .partLinkqSluice => decide (s.reg .partState 0 i ≠ 0)
  | .partLinkqLedger => decide (s.reg .partState 0 i ≠ 0)
  | .partLinkqStream => decide (s.reg .partState 0 i ≠ 0)
  | .kprTelemLoc => decide (s.rd .kprTelemEn = 1)
  | .kprTelemBase => decide (s.rd .kprTelemEn = 1)
  | .kprTelemSizeLog2 => decide (s.rd .kprTelemEn = 1)
  | _ => false

/-- Fields of QD_n that software writes beside EN. -/
def qdRw : List Fld := [.qdBase, .qdCells, .qdLendEn, .qdLendCore, .qdLendQ, .qdLendMin, .qdFlight]

/-- A write to QD_n (R473): while EN is 1, one that reaches EN and changes nothing else writes EN; every other one is discarded. -/
def State.writeQd (s : State) (l : Loc) (who : Requester) (size data q : Nat) : State :=
  let u := l.inst
  if s.reg .qdEn u q = 0 then s.putQd l who size data q
  else
    let fs := l.under size
    let chg := fs.any (fun x => qdRw.contains x.1 && decide (l.merge size data x.1 x.2 (s.reg x.1 u x.2) ≠ s.reg x.1 u x.2))
    if fs.contains (.qdEn, q) && !chg then s.setReg .qdEn u q (l.merge size data .qdEn q 1) else s.locEvent l Gs.busyWrite (sourceOf who)

/-- The pair that R827 refuses: a write that would leave MASTER 1 beside PACE_SRC 1. -/
def State.paceRefused (s : State) (l : Loc) (size data : Nat) (fs : List (Fld × Nat)) : Bool :=
  let v (f : Fld) : Nat :=
    if fs.contains (f, 0) then
      (let x := l.merge size data f 0 (s.pending? f 0)
       if s.legal f 0 0 x then x else s.pending? f 0)
    else s.pending? f 0
  (fs.contains (.weirMaster, 0) || fs.contains (.weirPaceSrc, 0)) && decide (v .weirMaster = 1) && decide (v .weirPaceSrc = 1)

/-- The four reserves of PART_LINKQ, one field of its register. -/
def linkqFields : List Fld := [.partLinkqReq, .partLinkqSluice, .partLinkqLedger, .partLinkqStream]

/-- The fields under a write whose group has no legal value, and stays as it is (R10): PART_LINKQ.RESV with a reserve above 16, and the pair of R827. -/
def State.groupBad (s : State) (l : Loc) (size data : Nat) (fs : List (Fld × Nat)) : List Fld :=
  (if fs.any (fun x => linkqFields.contains x.1 && !(s.shutField x.1 x.2) && decide (16 < l.merge size data x.1 x.2 (s.reg x.1 l.inst x.2))) then
    linkqFields else [])
    ++ (if s.paceRefused l size data fs then [.weirMaster, .weirPaceSrc] else [])

/-- A field whose register holds nothing but protected fields: every write that reaches it is recorded. The others share their bytes with a field that stays
writable, and a write that leaves them as they are is no write of them (log 49). -/
def Fld.shutAlone (f : Fld) : Bool := decide (f ≠ .partQuads) && decide (f ≠ .kprTelemSizeLog2)

/-- A write to registers, field by field: its clears come before what its other fields set (R19). -/
def State.putFields (s : State) (l : Loc) (who : Requester) (size data : Nat) (fs : List (Fld × Nat)) : State :=
  let chg (x : Fld × Nat) : Bool := decide (l.merge size data x.1 x.2 (s.reg x.1 l.inst x.2) ≠ s.reg x.1 l.inst x.2)
  let shut := fs.filter (fun x => s.shutField x.1 x.2)
  let s1 := if shut.any (fun x => x.1.shutAlone || chg x) then s.locEvent l Gs.busyWrite (sourceOf who) else s
  let bad := s.groupBad l size data fs
  let s1 := if bad.isEmpty then s1 else s1.locEvent l Gs.illegal (sourceOf who)
  let open_ := fs.filter (fun x => !(s.shutField x.1 x.2) && !(bad.contains x.1))
  (open_.filter (fun x => x.1.clears) ++ open_.filter (fun x => !x.1.clears)).foldl (fun t x => t.putField l who size data x.1 x.2) s1

/-- A write to TOW_RING_p (R687): while EN is 1, one that reaches EN and changes nothing else writes EN; every other one is discarded. -/
def State.writeRing (s : State) (l : Loc) (who : Requester) (size data p : Nat) : State :=
  let fs := l.under size
  if s.reg .towRingEn l.inst p = 0 then s.putFields l who size data fs
  else
    let chg := fs.any (fun x => decide (x.1 ≠ .towRingEn) && decide (l.merge size data x.1 x.2 (s.reg x.1 l.inst x.2) ≠ s.reg x.1 l.inst x.2))
    if fs.contains (.towRingEn, p) && !chg then s.setReg .towRingEn l.inst p (l.merge size data .towRingEn p 1) else s.locEvent l Gs.busyWrite (sourceOf who)

/-- A write to the registers of a block; one with GO for a mover that is busy is discarded (R533). -/
def State.regWrite (s : State) (l : Loc) (who : Requester) (size data : Nat) : State :=
  let fs := l.under size
  match l.blk with
  | .klk => if l.off < 8 then s.putTopology l who size data else s.putFields l who size data fs
  | .slc =>
    if l.off < 0x20000 then
      let i := l.off / 8
      s.putSluice i (putBits (s.slcTest i) (8 * (l.off % 8)) (8 * size) data)
    else if l.off < 0x20080 then s.putSlcPart l who size data ((l.off - 0x20000) / 8)
    else s.putFields l who size data fs
  | .bwr =>
    let s := s.putFields l who size data (fs.filter (fun x => !([Fld.classMidAt, .classHighAt, .classCritAt].contains x.1)))
    if l.off < 0x80 then s.putPoints l who size data (l.off / 16) else s
  | .core =>
    if 0x400 ≤ l.off ∧ l.off < 0x500 then
      s.writeQd l who size data ((l.off - 0x400) / 16)
    else if l.off / 8 = 0x100 ∧ s.runs l.inst = true ∧ l.inst = 128 then s.locEvent l Gs.busyWrite (sourceOf who)
    else s.putFields l who size data fs
  | .spd => if l.off < 8 ∧ fs ≠ [] ∧ s.runs l.inst = true then s.locEvent l Gs.busyWrite (sourceOf who) else s.putFields l who size data fs
  | .cmd =>
    if 0x200 ≤ l.off ∧ l.off < 0x300 ∧ l.off % 16 < 8 ∧ s.hqsBad l size data ((l.off - 0x200) / 16) = true then
      s.locEvent l Gs.target (sourceOf who)
    else s.putFields l who size data fs
  | .mcMove =>
    if fs.any (fun x => decide (x.1 = .moveGo) && decide (l.ones size data .moveGo x.2 = 1) && decide ((s.mover x.2).phase ≠ 0)) then s
    else s.putFields l who size data fs
  | .tow => if l.off < 0x200 then s.writeRing l who size data (l.off / 0x20) else s.putFields l who size data fs
  | .kpr =>
    if l.off / 8 = 0xE0 ∧ who ≠ .keeper then s.locEvent l Gs.locked (sourceOf who) else s.putFields l who size data fs
  | _ => s.putFields l who size data fs

/-! ### The lock groups (Table 19-3) -/

/-- The lock bit that governs a place for the PF. -/
def Loc.lockBit (l : Loc) : Option Nat :=
  match l.blk with
  | .rsv => some 0
  | .weir => some 0
  | .bwr => some 1
  | .part => some 2
  | .mcMove => some 2
  | .cmd => if l.inst < 16 then some 2 else none
  | .slc => some 3
  | .klk => some 4
  | .tow => some 5
  | .kpr => if (0x10 ≤ l.off ∧ l.off < 0x40) ∨ (0x130 ≤ l.off ∧ l.off < 0x140) then some 7 else none
  | .mc => none
  | _ => some 6

/-- The PF's writes to a place are locked out (R849). -/
def State.lockedOut (s : State) (who : Requester) (l : Loc) : Bool :=
  match who, l.lockBit with
  | .pf, some b => (s.rd .kprExpertLock).testBit b
  | _, _ => false

/-- A write into a window (R217, R262, R308). -/
def State.putWin (s : State) (l : Loc) (who : Requester) (w : Win) (b size data : Nat) : State :=
  if w = .pstore ∧ s.runs l.inst = true then s.locEvent l Gs.busyWrite (sourceOf who) else s.winWrite w l.inst b size data

/-- A write: the state after it and the status of TRS (R839 to R841, R845, R849, R850). -/
def State.controlWrite (s : State) (who : Requester) (off size data : Nat) : State × Nat :=
  if !(sizeOk off size) then (s.unmapped who off, 4)
  else match msixLoc who off with
    | some (.entry fn b) =>
      if s.rd .kprReady = 1 then
        let k := 64 * fn + b / 16
        ({ s with host := { s.host with msix := tabSet 0 k (putBits (tabGet 0 k s.host.msix) (8 * (b % 16)) (8 * size) data) s.host.msix } }, 0)
      else (s.unmapped who off, 4)
    | some .pba => (s, 0)
    | none => match s.place who off with
      | none => (s.unmapped who off, 4)
      | some l =>
        if !(l.assigned size) then (s.locEvent l Gs.unmapped (sourceOf who), 4)
        else if s.lockedOut who l then (s.locEvent l Gs.locked (sourceOf who), 0)
        else if s.locOff l then (s.locEvent l Gs.islandOff (sourceOf who), 5)
        else
          let s := s.wakeFor l
          match l.win with
          | some (w, b) => (s.putWin l who w b size data, 0)
          | none => (s.regWrite l who size data, 0)

/-- Carries out a register write. -/
def State.doWrite (s : State) (a : Access) : State :=
  let r := s.controlWrite a.who a.off a.size a.data.toNat
  if a.who = .trq then r.1.emit (.kbTrs r.2) else r.1

/-! ### The write commands -/

/-- The access covers bits of one of these fields. -/
def covers (a : Access) (fs : List Fld) : Bool :=
  match locate a.who a.off with
  | some l => l.win.isNone && (l.under a.size).any (fun x => fs.contains x.1)
  | none => false

/-- The access carries a 1 in one of these fields. -/
def setsOne (a : Access) (fs : List Fld) : Bool :=
  match locate a.who a.off with
  | some l => l.win.isNone && (l.under a.size).any (fun x => fs.contains x.1 && decide (l.ones a.size a.data.toNat x.1 x.2 ≠ 0))
  | none => false

/-- The access reaches a window of stores. -/
def inWindow (a : Access) (w : Win) : Bool :=
  match locate a.who a.off with
  | some l => decide (l.win.map (fun x => x.1) = some w)
  | none => false

/-- A write command whose access is of its kind. -/
def State.writeRow (s : State) (a : Access) (mine : Bool) : Host.Outcome State Fault Refusal :=
  if mine && s.reaches a.who then fin (s.doWrite a) else stay s

/-- REGISTER_WRITE (R10). -/
def execRegisterWrite (a : Access) (s : State) : Host.Outcome State Fault Refusal := s.writeRow a true

/-- MEMZERO_GO (R758). -/
def execMemzeroGo (a : Access) (s : State) : Host.Outcome State Fault Refusal := s.writeRow a (setsOne a [.kprMemzeroGo])

/-- P_STATIC_WRITE (R98). -/
def execPStaticWrite (a : Access) (s : State) : Host.Outcome State Fault Refusal := s.writeRow a (covers a [.rsvPStaticMw])

/-- STAGED_REGISTER_WRITE (R774). -/
def execStagedRegisterWrite (a : Access) (s : State) : Host.Outcome State Fault Refusal :=
  s.writeRow a (covers a ((Blk.fields .rsv ++ Blk.fields .weir ++ Blk.fields .bwr ++ Blk.fields .part).filter (fun f => f.staged)))

/-- QD_WRITE (R464, R473). -/
def execQdWrite (a : Access) (s : State) : Host.Outcome State Fault Refusal := s.writeRow a (covers a [.qdEn, .qdFlight, .qdLendMin])

/-- QS_WRITE (R436). -/
def execQsWrite (a : Access) (s : State) : Host.Outcome State Fault Refusal := s.writeRow a (covers a [.qsEn, .qsQuota])

/-- PSTORE_WRITE (R262). -/
def execPstoreWrite (a : Access) (s : State) : Host.Outcome State Fault Refusal := s.writeRow a (inWindow a .pstore)

/-- SWG_UCODE_WRITE (R217): a decode is one step of the model, so none is running when the write takes effect. -/
def execSwgUcodeWrite (a : Access) (s : State) : Host.Outcome State Fault Refusal := s.writeRow a (inWindow a .ucode)

/-- SPD_WHEEL_WRITE (R345). -/
def execSpdWheelWrite (a : Access) (s : State) : Host.Outcome State Fault Refusal := s.writeRow a (covers a [.spdPattern])

/-- PAIR_STATE_WRITE (R331, R348). -/
def execPairStateWrite (a : Access) (s : State) : Host.Outcome State Fault Refusal := s.writeRow a (covers a [.spdPairState])

/-- MOVE_GO (R514, R533). -/
def execMoveGo (a : Access) (s : State) : Host.Outcome State Fault Refusal := s.writeRow a (setsOne a [.moveGo])

/-- SLUICE_REGISTER_WRITE (R591). -/
def execSluiceRegisterWrite (a : Access) (s : State) : Host.Outcome State Fault Refusal := s.writeRow a (covers a [.sluiceCount, .sluiceCtrl])

/-- SLC_PART_WRITE (R592). -/
def execSlcPartWrite (a : Access) (s : State) : Host.Outcome State Fault Refusal := s.writeRow a (covers a [.slcPartBase, .slcPartEn, .slcPartFlight])

/-- LINK_HOLD_WRITE (R605). -/
def execLinkHoldWrite (a : Access) (s : State) : Host.Outcome State Fault Refusal := s.writeRow a (covers a [.linkHold])

/-- RETRAIN (R604). -/
def execRetrain (a : Access) (s : State) : Host.Outcome State Fault Refusal := s.writeRow a (setsOne a [.linkRetrain])

/-- UNQUAR (R636). -/
def execUnquar (a : Access) (s : State) : Host.Outcome State Fault Refusal := s.writeRow a (setsOne a [.linkUnquar])

/-- KLK_TOPOLOGY_WRITE (R43 to R47). -/
def execKlkTopologyWrite (a : Access) (s : State) : Host.Outcome State Fault Refusal := s.writeRow a (covers a [.klkChipNum, .klkLocked])

/-- TOW_RING_WRITE (R687). -/
def execTowRingWrite (a : Access) (s : State) : Host.Outcome State Fault Refusal := s.writeRow a (covers a [.towRingEn, .towRingBase])

/-- SQ_TAIL_WRITE (R699, R700). -/
def execSqTailWrite (a : Access) (s : State) : Host.Outcome State Fault Refusal := s.writeRow a (covers a [.cmdSqTail])

/-- CQ_HEAD_WRITE (R705, R741). -/
def execCqHeadWrite (a : Access) (s : State) : Host.Outcome State Fault Refusal := s.writeRow a (covers a [.cmdCqHead])

/-- KPR_FENCE_WRITE (Table 17-3 row 6, R865). -/
def execKprFenceWrite (a : Access) (s : State) : Host.Outcome State Fault Refusal := s.writeRow a (covers a [.kprFenced])

/-- DBG_CTRL_EN_WRITE (R809). -/
def execDbgCtrlEnWrite (a : Access) (s : State) : Host.Outcome State Fault Refusal := s.writeRow a (covers a [.dbgEn])

/-- HALT (R810). -/
def execHalt (a : Access) (s : State) : Host.Outcome State Fault Refusal := s.writeRow a (setsOne a [.dbgHalt])

/-- STEP (R810). -/
def execStep (a : Access) (s : State) : Host.Outcome State Fault Refusal := s.writeRow a (setsOne a [.dbgStep])

/-- RESUME (R810). -/
def execResume (a : Access) (s : State) : Host.Outcome State Fault Refusal := s.writeRow a (setsOne a [.dbgResume])

/-- PMC_SEL_WRITE (R816). -/
def execPmcSelWrite (a : Access) (s : State) : Host.Outcome State Fault Refusal := s.writeRow a (covers a [.dbgPmcSel])

/-- KPR_EXPERT_WRITE (R850). -/
def execKprExpertWrite (a : Access) (s : State) : Host.Outcome State Fault Refusal := s.writeRow a (covers a [.kprExpertLock])

/-- INT_EN_WRITE (R852). -/
def execIntEnWrite (a : Access) (s : State) : Host.Outcome State Fault Refusal := s.writeRow a (covers a [.kprIntEn])

/-- TELEM_CFG_WRITE (R857, R858). -/
def execTelemCfgWrite (a : Access) (s : State) : Host.Outcome State Fault Refusal := s.writeRow a (covers a [.kprTelemBase, .kprTelemEn])

end Sys2Proof.Machine
end

