-- ==== Sys2Proof/Machine/Policy.lean ====
section
/-! DEFINITION. The packets and commands that set policy (15_host_partitions_and_commands.md R710, R711, Table 15-5; R554, R775): COMMIT, POWER_POLICY and
BW_POLICY. -/

namespace Sys2Proof.Machine

/-- COMMIT (R775, R781): the packet, or a write of 1 to KPR_COMMIT.GO. -/
def execCommit (src : CommitSrc) (s : State) : Host.Outcome State Fault Refusal :=
  match src with
  | .register a => s.writeRow a (setsOne a [.kprCommitGo])
  | .packet pid => match s.ready pid 1 with
    | some k => fin (s.commitGo.finish k 0)
    | none => stay s

/-- A CSTATE request for one core (R710, R711): refused for a core that runs a task; CSTATE 0 wakes; a deeper state is entered once the core is
idle (CSTATE_ENTRY). -/
def State.askCstate (s : State) (u st : Nat) : State :=
  if s.fenced u || (s.core u).tasked then s
  else if st = 0 then s.toC0 u
  else s.setCore u { s.core u with cReq := some st }

/-- POWER_POLICY (R710, R711): the valid fields go to their pending copies, the copies are committed, and the cores of the mask are asked for
their state. Without CHIP the cores are those of the partition named (R708). -/
def execPowerPolicy (pid : Nat) (s : State) : Host.Outcome State Fault Refusal :=
  match s.ready pid 0x20 with
  | none => stay s
  | some k =>
    let p := k.part
    let v (b : Nat) : Bool := (k.get 0x10 1).testBit b
    let mask := maskCores (k.get 0x20 16)
    if v 4 && !k.chip && mask.any (fun u => !((s.coresOf p).contains u)) then fin (s.finish k St.partBad)
    else
      let s1 := if v 0 then s.stage .rsvPeakW 0 (k.get 0x12 2) else s
      let s1 := if v 1 then s1.stage .rsvSustainW 0 (k.get 0x14 2) else s1
      let s1 := if v 2 then s1.stage .rsvShareWeight p (k.get 0x16 1) else s1
      let s1 := if v 3 then s1.stage .partFcap p (k.get 0x17 1) else s1
      let s1 := if v 0 || v 1 || v 2 || v 3 then s1.commitGo else s1
      let s1 := if v 4 then mask.foldl (fun t u => t.askCstate u (k.get 0x18 1)) s1 else s1
      fin (s1.finish k 0)

/-- BW_POLICY (R542, R554): the settings of one class go to their pending copies. -/
def execBwPolicy (pid : Nat) (s : State) : Host.Outcome State Fault Refusal :=
  match s.ready pid 0x21 with
  | none => stay s
  | some k =>
    let c := k.get 0x10 1
    let s1 := ((s.stage .classMode c (k.get 0x11 1)).stage .classPrio c (k.get 0x12 1)).stage .classBudget c (k.get 0x14 4)
    let mid := k.get 0x18 1
    let high := k.get 0x19 1
    let crit := k.get 0x1A 1
    let s1 := if 4 ≤ c then s1
      else if mid < high ∧ high < crit then ((s1.stage .classMidAt c mid).stage .classHighAt c high).stage .classCritAt c crit
      else s1.gevent Gs.illegal 5 0 (16 * c) 17
    fin (s1.finish k 0)

end Sys2Proof.Machine
end

