-- ==== Sys2Proof/Machine/Block.lean ====
section
/-! DEFINITION. The YZ2-KB block's ports, the module's management commands and its test access (20_integration.md R866 to R906). The block is core 128
of the table of cores. -/

namespace Sys2Proof.Machine

/-! ### Management commands (Table 20-14) -/

/-- GET_STATUS (R895, R896): KPR_BOOT and KPR_PSTATE, the hottest junction and stack, accounted and measured power in mW. -/
def execGetStatus (junctionC hbmC measuredMw : Nat) (s : State) : Host.Outcome State Fault Refusal :=
  if s.rd .kprStep < 4 then stay s
  else
    let boot := s.regRead ⟨.kpr, 2, 0, 0⟩ 8
    let pst := s.regRead ⟨.kpr, 2, 0, 0x30⟩ 8
    fin (s.emit (.mctp 2 0 (toBytes 8 boot ++ toBytes 8 pst ++ toBytes 2 junctionC ++ toBytes 2 hbmC ++ toBytes 4 (s.pow.p4 / 4) ++ toBytes 4 measuredMw)))

/-- PSTATE_REQ (R769 to R772, R896). -/
def execPstateReq (target : BitVec 2) (s : State) : Host.Outcome State Fault Refusal :=
  match target.toNat with
  | 0 => s.mctpState State.askRun
  | 2 => s.mctpState State.askStandby
  | 3 => s.mctpState State.askOff
  | _ => s.mctpState (fun t => (t, 3))

/-- TELEMETRY (R895): the latest readings of every regulator, in mW, four bytes each. -/
def execTelemetry (s : State) : Host.Outcome State Fault Refusal :=
  if s.rd .kprStep < 4 then stay s
  else if s.rd .kprReady = 0 then fin (s.emit (.mctp 8 1 []))
  else fin (s.emit (.mctp 8 0 (s.env.pmbus.flatMap (fun r => toBytes 4 r))))

/-! ### The YZ2-KB block -/

/-- The block's registers of Table 20-16, which P and C clear. -/
def kbRegs : List Nat := kbFields.map (fun f => f.ctorIdx)

/-- A reset of the block is reported (Table 20-7 kind 6); the manual gives no numbers for the reset kinds, so CODE is free. -/
def State.kbResetDone (s : State) : State :=
  let r := s.draw64
  r.2.emit (.kbStat (6 + r.1 % 256 * 16))

/-- A P or C reset of the block (Tables 16-5, 20-6): P leaves the stores undefined. -/
def State.kbReset (s : State) (p : Bool) : State :=
  let s := (s.killTask 128).coreClearT 128
  let s := s.clearRegs kbRegs (fun i _ => decide (i = 128))
  let s := if p then s.setCore 128 (s.core 128).loseStores else s
  { s with kb := { rstLow := s.kb.rstLow, wrapper := s.kb.wrapper } }

/-- The integrator's own TAP selects the wrapper's mode (R899); no row of the command table is that event. In WS_BYPASS the block works. -/
def State.wsSelect (s : State) (m : WsMode) : State := { s with kb := { s.kb with wrapper := m } }

/-- The block listens on its ports: RST_N is high, and its wrapper is in WS_BYPASS (PRESUMED from IEEE 1500, log 109). -/
def State.kbUp (s : State) : Bool := !s.kb.rstLow && decide (s.kb.wrapper = .bypass)

/-- CTL_P_RESET (R881, Table 20-6). -/
def execCtlPReset (s : State) : Host.Outcome State Fault Refusal := if s.kbUp then fin (s.kbReset true).kbResetDone else stay s

/-- CTL_C_RESET (Table 20-6). -/
def execCtlCReset (s : State) : Host.Outcome State Fault Refusal := if s.kbUp then fin (s.kbReset false).kbResetDone else stay s

/-- CTL_T_RESET (R760, Table 20-6): the task is ended at once, and the T fields and the scratchpad return to Reset. -/
def execCtlTReset (s : State) : Host.Outcome State Fault Refusal :=
  if s.kbUp then fin (((s.killTask 128).coreClearT 128).kbResetDone) else stay s

/-- CTL_K_RESET (R761, R785): the task is halted; once what it started is complete, a further step flushes the enabled queues and clears the K
fields. A fenced block stays as it is. -/
def execCtlKReset (s : State) : Host.Outcome State Fault Refusal :=
  if !s.kbUp then stay s
  else if s.fenced 128 then fin s.kbResetDone
  else
    let s := s.haltTask 128 0
    if (s.core 128).tasked then fin s else fin (((s.flushAll 128).coreClearK 128).kbResetDone)

/-- CTL_ENTER_STATE (R765 to R768): C0 at once; a deeper state is asked for, and CSTATE_ENTRY enters it. -/
def execCtlEnterState (arg : BitVec 12) (s : State) : Host.Outcome State Fault Refusal :=
  let st := arg.toNat % 4
  if !s.kbUp || s.fenced 128 then stay s
  else if st = 0 then fin ((s.toC0 128).emit (.kbStat 2))
  else fin (s.setCore 128 { s.core 128 with cReq := some st })

/-- CTL_FENCE (R796, Table 20-6): no row of Table 17-3 is this cause, so the number reported is free. -/
def execCtlFence (s : State) : Host.Outcome State Fault Refusal :=
  if !s.kbUp || s.fenced 128 then stay s
  else
    let r := s.draw64
    fin (r.2.fenceCore 128 (r.1 % 256) 2)

/-- CTL_START (R356, R365, R419, R903): a block that runs no task starts; a fenced one ignores it. -/
def execCtlStart (arg : BitVec 12) (s : State) : Host.Outcome State Fault Refusal :=
  if !s.kbUp || s.fenced 128 || (s.core 128).tasked then stay s
  else fin ((s.toC0 128).startTask 128 arg.toNat 0 (fun _ => 0))

/-- CTL_HALT (R416). -/
def execCtlHalt (s : State) : Host.Outcome State Fault Refusal := if s.kbUp then fin (s.haltTask 128 0) else stay s

/-- CTL_CLEAR (R334, R335). -/
def execCtlClear (arg : BitVec 12) (s : State) : Host.Outcome State Fault Refusal :=
  if !s.kbUp || s.islandOff 128 then stay s else fin (s.clearPairs 128 (arg.toNat % 256))

/-- CTL_UNDEFINED (Table 20-6): ignored, and reported as an ILLEGAL event. -/
def execCtlUndefined (w : BitVec 16) (s : State) : Host.Outcome State Fault Refusal :=
  let c := w.toNat % 16
  if !s.kbUp || (decide (1 ≤ c) && decide (c ≤ 9)) then stay s else fin (s.emit (.kbStat 4))

/-- KB_RST_N_ASSERT (R881). -/
def execKbRstNAssert (s : State) : Host.Outcome State Fault Refusal :=
  let s := s.kbReset true
  fin { s with kb := { rstLow := true, wrapper := s.kb.wrapper } }

/-- KB_RST_N (R881): the release completes a P reset; the block is in C1. -/
def execKbRstN (s : State) : Host.Outcome State Fault Refusal :=
  if s.kb.rstLow then
    let s := { s with kb := { wrapper := s.kb.wrapper } }
    fin (s.kbReset true).kbResetDone
  else stay s

/-- The block's request of an epoch (Table 02-1, R871): units and activity are its own measurement, which the model leaves free. -/
def State.kbRequest (s : State) : State :=
  let r := s.draw64
  r.2.emit (.kbPwr (r.2.reg .kbIsland 128 0 + r.1 % 2 ^ 20 * 256))

/-- KB_GRANT (R871, R882, R902): the grant starts an epoch, and the block sends its request. -/
def execKbGrant (w : BitVec 32) (s : State) : Host.Outcome State Fault Refusal :=
  if !s.kbUp then stay s
  else
    let n := w.toNat
    let s := { s with kb := { s.kb with granted := true, atMin := false, epoch := bits n 24 8, units := bits n 0 12, ballast := bits n 12 12 } }
    fin s.kbRequest

/-- KB_GRANT_TIMEOUT (R882): the block runs at its MIN, with no ballast, and goes on asking. -/
def execKbGrantTimeout (s : State) : Host.Outcome State Fault Refusal :=
  if !s.kbUp || !s.kb.granted then stay s
  else
    let s := { s with kb := { s.kb with atMin := true, ballast := 0 } }
    fin (s.setReg .kbEpochLost 128 0 1).kbRequest

/-- The ports on which the block receives (Tables 20-3, 20-16): MRS0, MRS1, QIN, LRX, SIN, TRQ, GRANT, CTL. -/
def kbInputs : List Nat := [2, 3, 5, 6, 8, 9, 12, 13]

/-- PROTO_FAULT (R875, Table 17-3 row 7). -/
def execProtoFault (port : Nat) (s : State) : Host.Outcome State Fault Refusal :=
  if s.kbUp && kbInputs.contains port then
    fin (((s.setReg .kbProtoFault 128 0 1).setReg .kbPort 128 0 port).fenceCore 128 7 2)
  else stay s

/-- An access of the TRQ port (R870). -/
def State.trq (s : State) (hdr data : BitVec 64) : Host.Outcome State Fault Refusal :=
  let h := hdr.toNat
  let off := 4 * bits h 2 21
  let size := if h.testBit 1 then 8 else 4
  if !s.kbUp then stay s
  else if h.testBit 0 then fin (s.doWrite ⟨.trq, off, size, data⟩)
  else
    let r := s.controlRead .trq off size
    fin (r.1.reply .trq off size r.2.1 r.2.2)

/-- TRQ_ACCESS (R870). -/
def execTrqAccess (hdr data : BitVec 64) (s : State) : Host.Outcome State Fault Refusal := s.trq hdr data

/-- CORE_KB_CFG_WRITE (R900). -/
def execCoreKbCfgWrite (hdr data : BitVec 64) (s : State) : Host.Outcome State Fault Refusal :=
  if hdr.toNat.testBit 0 ∧ 4 * bits hdr.toNat 2 21 / 8 = 0x100800 / 8 then s.trq hdr data else stay s

/-! ### Test access (Table 20-15) -/

/-- Selects a TAP register. -/
def State.tapTo (s : State) (reg : String) (value : Option Nat) : Host.Outcome State Fault Refusal :=
  fin (({ s with tap := reg }).emit (.jtag reg value))

/-- A boundary instruction acts while RESET_N is low, and as BYPASS at other times (R898). -/
def State.tapHeld (s : State) (reg : String) : Host.Outcome State Fault Refusal :=
  if s.env.resetLow then s.tapTo reg none else s.tapTo "BYPASS" none

/-- IDCODE (R897). -/
def execIdcode (s : State) : Host.Outcome State Fault Refusal :=
  s.tapTo "IDCODE" (some (s.fuses.stepMajor % 16 * 2 ^ 28 + 0x5A32 * 2 ^ 12 + 0x4D9 * 2 + 1))

/-- SAMPLE/PRELOAD (R897). -/
def execSamplePreload (s : State) : Host.Outcome State Fault Refusal := s.tapTo "SAMPLE/PRELOAD" none

/-- EXTEST (R898). -/
def execExtest (s : State) : Host.Outcome State Fault Refusal := s.tapHeld "EXTEST"

/-- EXTEST_PULSE (R898). -/
def execExtestPulse (s : State) : Host.Outcome State Fault Refusal := s.tapHeld "EXTEST_PULSE"

/-- EXTEST_TRAIN (R898). -/
def execExtestTrain (s : State) : Host.Outcome State Fault Refusal := s.tapHeld "EXTEST_TRAIN"

/-- HBM_1500 (R898). -/
def execHbm1500 (s : State) : Host.Outcome State Fault Refusal := s.tapHeld "HBM_1500"

/-- BYPASS (Table 20-15): its own code, every undefined code, and the private codes, whose lock is not open. -/
def execBypass (code : BitVec 8) (s : State) : Host.Outcome State Fault Refusal :=
  if [1, 2, 3, 4, 5, 0x10].contains code.toNat then stay s else s.tapTo "BYPASS" none

end Sys2Proof.Machine
end

