-- ==== Sys2Proof/Machine/Coherence.lean ====
section
/-! DEFINITION. Coherence of the control-region caches (10_memory_tiers.md, R520 to R526, Tables 10-8 and 10-9), and the service of a
controller, whose accesses to the control region take lines back from the caches. A cache is 0 to 15 for a partition's command processor and
16 for the Keeper; a line is counted in 64-byte lines of the control region. -/

namespace Sys2Proof.Machine

/-- The caches and lines that exist. -/
def lineOk (line : Nat) : Bool := decide (line < 2 ^ 24)

/-- A message from the directory to a cache. -/
def CohKind.down : CohKind → Bool
  | .gets => false
  | .getx => false
  | .putm => false
  | .pute => false
  | .dataS => true
  | .dataX => true
  | .ackX => true
  | .wbAck => true
  | .retry => true
  | .inv => true
  | .recall => true

/-- The first message to cache `n` about a line, where it is of this kind: they are received in the order sent (R31, R525). -/
def State.cohFirst (s : State) (k : CohKind) (n line : Nat) : Option CohMsg :=
  match s.ms.coh.find? (fun m => m.kind.down && decide (m.cache = n) && decide (m.line = line)) with
  | some m => if m.kind = k then some m else none
  | none => none

/-- Takes the first message of a kind for a cache and line out. -/
def State.cohTake (s : State) (k : CohKind) (n line : Nat) : State :=
  { s with ms := { s.ms with coh := s.ms.coh.eraseP (fun m => decide (m.kind = k) && decide (m.cache = n) && decide (m.line = line)) } }

/-- The lines that a controller's directory tracks (R520). -/
def State.tracked (s : State) (m : Nat) : List Nat := (s.ms.dir.filter (fun x => decide (x.2.st ≠ 0) && decide (dirCtl x.1 = m))).map (fun x => x.1)

/-- The directory begins to reuse the entry of its lowest line that is not busy (R520). -/
def State.dirReuse (s : State) (m : Nat) : State :=
  match (s.tracked m).find? (fun l => decide ((s.dirEnt l).st ≠ 3)) with
  | some l =>
    let s := s.takeBack l true
    s.setDir l { s.dirEnt l with reuse := true }
  | none => s

/-- An entry of controller `m` is free: a request held for want of one is served (R524). -/
def State.dirFreed (s : State) (m : Nat) : State :=
  if 2048 ≤ (s.tracked m).length then s
  else match s.ms.dir.find? (fun x => decide (dirCtl x.1 = m) && decide (x.2.st = 0) && !x.2.held.isEmpty && !(s.waitsAt (ctrlBase + 64 * x.1) 64)) with
    | some x => s.dirHeld x.1 18
    | none => s

/-- The line is free of its holders: what waits for it goes on, and an entry that it gives up serves a held request. -/
def State.dirGo (s : State) (line : Nat) : State := (s.dirResolve line).dirFreed (dirCtl line)

/-- An answer to a recall or an invalidation (R526, R531). -/
def State.dirAck (s : State) (n line : Nat) : State :=
  let d := s.dirEnt line
  if d.st = 3 ∧ d.toAck.contains n then
    let s := s.setDir line { d with toAck := d.toAck.filter (fun c => decide (c ≠ n)), sharers := d.sharers.filter (fun c => decide (c ≠ n)) }
    if (s.dirEnt line).toAck.isEmpty then s.dirGo line else s
  else s

/-- A line whose requests must wait: it is in B, or requests wait for it or are held. -/
def DirEnt.busy (d : DirEnt) : Bool := decide (d.st = 3) || !d.waiting.isEmpty || !d.held.isEmpty

/-- A request that arrives after 16 RETRYs is held and never retried (R524); it is served at once where nothing stands in its way. -/
def State.dirHold (s : State) (n line : Nat) (own : Bool) : State :=
  let d := s.dirEnt line
  let s := (s.setDir line { d with held := d.held ++ [(n, own)] }).bump .mcDirHold (dirCtl line) 0 1
  if d.busy || s.waitsAt (ctrlBase + 64 * line) 64 || (decide (d.st = 2) && decide (d.owner = n)) then s
  else if d.st = 0 ∧ 2048 ≤ (s.tracked (dirCtl line)).length then s.dirReuse (dirCtl line)
  else s.dirHeld line 18

/-- A request reaches the directory: it is held (R524), waits for a busy line (ownership requests, R522), is refused (R520, R523, R532), or is
served. -/
def State.dirRequest (s : State) (n line : Nat) (own : Bool) : State :=
  let d := s.dirEnt line
  if 16 ≤ (s.cline n line).retries then s.dirHold n line own
  else if d.busy then
    if own && !d.reuse then s.setDir line { d with waiting := d.waiting ++ [(n, true)] } else s.sendRetry n line
  else if d.st = 2 ∧ d.owner = n then s.sendRetry n line
  else if d.st = 0 ∧ 2048 ≤ (s.tracked (dirCtl line)).length then (s.dirReuse (dirCtl line)).sendRetry n line
  else s.dirServe n line own false

/-- The grant of ownership that is on its way to cache `o`. -/
def State.granting (s : State) (o line : Nat) : Option CohMsg :=
  s.ms.coh.find? (fun m => decide (m.cache = o) && decide (m.line = line) && (decide (m.kind = .dataX) || decide (m.kind = .ackX)))

/-- A second ownership request reaches a line in one cycle with the first (R522, Table 10-9): they are served in ascending cache number. The higher
cache's grant, or its invalidation of the lower cache, is withdrawn where it came first. -/
def State.dirTogether (s : State) (n line : Nat) : State :=
  let d := s.dirEnt line
  match (if d.st = 2 then s.granting d.owner line else none), d.waiting with
  | some g, _ =>
    if d.owner < n then s.sendRetry n line
    else
      let o := d.owner
      let s := { s with ms := { s.ms with coh := s.ms.coh.erase g } }
      let s := s.setDir line { d with st := if g.kind = .ackX then 1 else 0, owner := 0, sharers := if g.kind = .ackX then [o] else [] }
      let s := s.dirServe n line true false
      if (s.dirEnt line).st = 3 then s.setDir line { s.dirEnt line with waiting := (s.dirEnt line).waiting ++ [(o, true)] } else s.sendRetry o line
  | none, [(o, true)] =>
    if d.st = 3 ∧ n < o ∧ d.toAck.contains n then
      let s := { s with ms := { s.ms with coh := s.ms.coh.eraseP (fun m => decide (m.kind = CohKind.inv) && decide (m.cache = n) && decide (m.line = line)) } }
      let s := if d.sharers.contains o then s.coh ⟨CohKind.inv, o, line, 0⟩ else s
      let ack := d.toAck.filter (fun c => decide (c ≠ n)) ++ (if d.sharers.contains o then [o] else [])
      let s := s.setDir line { d with toAck := ack, waiting := [(n, true), (o, true)] }
      if ack.isEmpty then s.dirGo line else s
    else s.dirRequest n line true
  | none, _ => s.dirRequest n line true

/-- A cache of 512 lines that is full drops its lowest shared line. -/
def State.makeRoom (s : State) (n : Nat) : State :=
  let mine := s.ms.cache.filter (fun x => decide (x.1 / 2 ^ 24 = n) && decide (x.2.st ≠ 0))
  if mine.length < 512 then s
  else match mine.find? (fun x => decide (x.2.st = 1) && decide (x.2.pend = 0)) with
    | some x => s.setCline n (x.1 % 2 ^ 24) { x.2 with st := 0, data := 0 }
    | none => s

/-- The cache has room for a line, or makes it. -/
def State.hasRoom (s : State) (n : Nat) : Bool :=
  let mine := s.ms.cache.filter (fun x => decide (x.1 / 2 ^ 24 = n) && decide (x.2.st ≠ 0))
  decide (mine.length < 512) || mine.any (fun x => decide (x.2.st = 1) && decide (x.2.pend = 0))

/-- A reissued request of a cache is on its way. -/
def State.reissued (s : State) (k : CohKind) (n line : Nat) : Bool :=
  s.ms.coh.any (fun m => decide (m.kind = k) && decide (m.cache = n) && decide (m.line = line))

/-- GETS (R520): a cache that does not hold a line asks to read it through its MGMT port (Table 11-1), or a reissued request arrives. -/
def execGets (n : Fin 17) (line : Nat) (s : State) : Host.Outcome State Fault Refusal :=
  let c := s.cline n line
  if !(lineOk line) then stay s
  else if s.reissued .gets n line then fin ((s.cohTake .gets n line).dirRequest n line false)
  else if c.st = 0 ∧ c.pend = 0 ∧ c.put = 0 ∧ s.hasRoom n ∧ s.portOpen Cls.mgmt n then
    fin ((((s.countLines Cls.mgmt n 1).makeRoom n).setCline n line { c with pend := 1, retries := 0 }).dirRequest n line false)
  else stay s

/-- An ownership request reaches the directory, alone or in one cycle with another for its line. -/
def State.dirOwn (s : State) (n line : Nat) (together : Bool) : State :=
  if together && decide ((s.cline n line).retries < 16) then s.dirTogether n line else s.dirRequest n line true

/-- GETX (R522): a cache that holds a line in I or S asks for ownership, with the store it waits to make. -/
def execGetx (n : Fin 17) (line : Nat) (want : Ownership) (s : State) : Host.Outcome State Fault Refusal :=
  let c := s.cline n line
  if !(lineOk line) then stay s
  else if s.reissued .getx n line then fin ((s.cohTake .getx n line).dirOwn n line want.together)
  else if c.st ≤ 1 ∧ c.pend = 0 ∧ c.put = 0 ∧ (c.st = 1 ∨ s.hasRoom n) ∧ s.portOpen Cls.mgmt n then
    let s := s.countLines Cls.mgmt n 1
    let s := if c.st = 0 then s.makeRoom n else s
    fin ((s.setCline n line { c with pend := 2, store := want.store, retries := 0 }).dirOwn n line want.together)
  else stay s

/-- A cache gives up a line of its own accord: the directory takes it as the answer of a recall that is on its way (R531). -/
def State.dirEvict (s : State) (n line : Nat) : State :=
  let d := s.dirEnt line
  if d.st = 3 then s.dirAck n line
  else if d.st = 2 ∧ d.owner = n then
    (s.setDir line { d with st := 0, owner := 0 }).dirGo line
  else s

/-- PUTM (R521): the writeback of an M line is accepted whatever the line's state. -/
def execPutm (n : Fin 17) (line : Nat) (s : State) : Host.Outcome State Fault Refusal :=
  let c := s.cline n line
  if !(lineOk line) || decide (c.st ≠ 3) || !(s.portOpen Cls.mgmt n) then stay s
  else
    let s := ((s.countLines Cls.mgmt n 1).writeBack line c.data).setCline n line { c with st := 0, data := 0, put := 1 }
    fin ((s.dirEvict n line).coh ⟨.wbAck, n, line, 0⟩)

/-- PUTE (R520): the eviction of an E line. -/
def execPute (n : Fin 17) (line : Nat) (s : State) : Host.Outcome State Fault Refusal :=
  let c := s.cline n line
  if !(lineOk line) || decide (c.st ≠ 2) || !(s.portOpen Cls.mgmt n) then stay s
  else fin (((s.countLines Cls.mgmt n 1).setCline n line { c with st := 0, data := 0 }).dirEvict n line)

/-- DATA_S (R520). -/
def execDataS (n : Fin 17) (line : Nat) (s : State) : Host.Outcome State Fault Refusal :=
  match s.cohFirst .dataS n line with
  | some m => fin ((s.cohTake .dataS n line).setCline n line { s.cline n line with st := 1, data := m.data, pend := 0, retries := 0, reissue := false })
  | none => stay s

/-- A cache has ownership: it performs its pending access at once (R525), a store making the line M. -/
def CacheLine.owned (c : CacheLine) (data : Nat) : CacheLine :=
  match c.store with
  | some v => { c with st := 3, data := v.toNat, pend := 0, store := none, retries := 0, reissue := false }
  | none => { c with st := 2, data := data, pend := 0, retries := 0, reissue := false }

/-- DATA_X (R525). -/
def execDataX (n : Fin 17) (line : Nat) (s : State) : Host.Outcome State Fault Refusal :=
  match s.cohFirst .dataX n line with
  | some m => fin ((s.cohTake .dataX n line).setCline n line ((s.cline n line).owned m.data))
  | none => stay s

/-- ACK_X (R525): an upgrade from S. -/
def execAckX (n : Fin 17) (line : Nat) (s : State) : Host.Outcome State Fault Refusal :=
  match s.cohFirst .ackX n line with
  | some _ => fin ((s.cohTake .ackX n line).setCline n line ((s.cline n line).owned (s.cline n line).data))
  | none => stay s

/-- WB_ACK (R521). -/
def execWbAck (n : Fin 17) (line : Nat) (s : State) : Host.Outcome State Fault Refusal :=
  match s.cohFirst .wbAck n line with
  | some _ => fin ((s.cohTake .wbAck n line).setCline n line { s.cline n line with put := 0 })
  | none => stay s

/-- RETRY (R523): the cache counts it and will reissue its request. -/
def execRetry (n : Fin 17) (line : Nat) (s : State) : Host.Outcome State Fault Refusal :=
  match s.cohFirst .retry n line with
  | some _ =>
    let c := s.cline n line
    fin ((s.cohTake .retry n line).setCline n line { c with retries := c.retries + 1, reissue := true })
  | none => stay s

/-- REISSUE (R523): the retry delay of the cache's request has passed. -/
def execReissue (n : Fin 17) (line : Nat) (s : State) : Host.Outcome State Fault Refusal :=
  let c := s.cline n line
  if c.reissue ∧ c.pend ≠ 0 ∧ s.portOpen Cls.mgmt n then
    fin (((s.countLines Cls.mgmt n 1).setCline n line { c with reissue := false }).coh ⟨if c.pend = 1 then .gets else .getx, n, line, 0⟩)
  else stay s

/-- INV (R520): the cache drops its copy and answers. -/
def execInv (n : Fin 17) (line : Nat) (s : State) : Host.Outcome State Fault Refusal :=
  match s.cohFirst .inv n line with
  | some _ =>
    let c := s.cline n line
    fin (((s.cohTake .inv n line).setCline n line { c with st := 0, data := 0 }).dirAck n line)
  | none => stay s

/-- RECALL (R525, R531): the owner returns a dirty line, releases a clean one, and ignores the recall of a line that it no longer holds. -/
def execRecall (n : Fin 17) (line : Nat) (s : State) : Host.Outcome State Fault Refusal :=
  match s.cohFirst .recall n line with
  | some _ =>
    let c := s.cline n line
    let s := s.cohTake .recall n line
    if c.st < 2 then fin s
    else
      let s := if c.st = 3 then s.writeBack line c.data else s
      fin ((s.setCline n line { c with st := 0, data := 0 }).dirAck n line)
  | none => stay s

/-- After an access of a controller to a line, the requests that wait for it or are held go on (R522, R524). -/
def State.dirAfter (s : State) (da : Nat) : State :=
  let line := ctrlLine da
  let d := s.dirEnt line
  if inControl da && decide (d.st ≤ 1) && d.busy && !(s.waitsAt (da / 64 * 64) 64) then s.dirGo line else s

/-- CONTROLLER_SERVE (R551, R552, R506, R526, R560): controller `m` serves its next request at time `t`. `rowHits` names the queued requests
that are row-buffer hits by arrival number; `ecc` is what the code finds in the line read. -/
def execControllerServe (m : McId) (t : Nat) (rowHits : List Nat) (ecc : EccResult) (s : State) : Host.Outcome State Fault Refusal :=
  match s.pickReq t rowHits (s.ctlQueue m) with
  | none => stay s
  | some r =>
    let da := r.msg.addr
    let d := s.dirEnt (ctrlLine da)
    let cached := inControl da && (decide (2 ≤ d.st) || (decide (d.st = 1) && r.msg.op.writes))
    if cached then (if d.st = 3 then stay s else fin (s.takeBack (ctrlLine da) r.msg.op.writes))
    else
      let s := { s with ms := { s.ms with now := max s.ms.now t } }
      fin ((s.setCtlQueue m ((s.ctlQueue m).filter (fun x => decide (x.ord ≠ r.ord)))).perform m r.msg ecc |>.dirAfter da)


end Sys2Proof.Machine
end

