-- ==== Sys2Proof/Machine/Dispatch.lean ====
section
/-! DEFINITION. The dispatch of commands to their meanings: one arm for each constructor of `Instr`. -/

namespace Sys2Proof.Machine

def exec (i : Instr) (s : State) : Host.Outcome State Fault Refusal :=
  match i with
  | .powerOnReset cause fuseOk => Sys2Proof.Machine.execPowerOnReset cause fuseOk s
  | .firmwareAuthenticate a b => Sys2Proof.Machine.execFirmwareAuthenticate a b s
  | .recovery last => Sys2Proof.Machine.execRecovery last s
  | .trayQuery tray log2 => Sys2Proof.Machine.execTrayQuery tray log2 s
  | .memoryTrainingDone tier2 result => Sys2Proof.Machine.execMemoryTrainingDone tier2 result s
  | .zeroFillDone m => Sys2Proof.Machine.execZeroFillDone m s
  | .ready selfTestFailed => Sys2Proof.Machine.execReady selfTestFailed s
  | .configRetryTimeout => Sys2Proof.Machine.execConfigRetryTimeout s
  | .chipReset src => Sys2Proof.Machine.execChipReset src s
  | .partitionReset src p => Sys2Proof.Machine.execPartitionReset src p s
  | .coreReset src u => Sys2Proof.Machine.execCoreReset src u s
  | .linkReset src l => Sys2Proof.Machine.execLinkReset src l s
  | .pcieHotReset => Sys2Proof.Machine.execPcieHotReset s
  | .functionLevelReset fn => Sys2Proof.Machine.execFunctionLevelReset fn s
  | .memzeroGo a => Sys2Proof.Machine.execMemzeroGo a s
  | .epochBoundary telemOk => Sys2Proof.Machine.execEpochBoundary telemOk s
  | .powerRequest w cycle => Sys2Proof.Machine.execPowerRequest w cycle s
  | .requestWindowClose => Sys2Proof.Machine.execRequestWindowClose s
  | .grantReceive j => Sys2Proof.Machine.execGrantReceive j s
  | .subWindow j report => Sys2Proof.Machine.execSubWindow j report s
  | .pacingSlotStart => Sys2Proof.Machine.execPacingSlotStart s
  | .paceFrame bits => Sys2Proof.Machine.execPaceFrame bits s
  | .paceLossTimeout masterReachable => Sys2Proof.Machine.execPaceLossTimeout masterReachable s
  | .paceTime k => Sys2Proof.Machine.execPaceTime k s
  | .localPacingCycle => Sys2Proof.Machine.execLocalPacingCycle s
  | .thermalThrottle tempC => Sys2Proof.Machine.execThermalThrottle tempC s
  | .breachEvent kind => Sys2Proof.Machine.execBreachEvent kind s
  | .thermalTrip110 tempC => Sys2Proof.Machine.execThermalTrip110 tempC s
  | .thermtrip junctionC hbmC => Sys2Proof.Machine.execThermtrip junctionC hbmC s
  | .pwrGoodLoss cause => Sys2Proof.Machine.execPwrGoodLoss cause s
  | .pwrEnDeassert => Sys2Proof.Machine.execPwrEnDeassert s
  | .pmbusRead readings pinMw trimMw => Sys2Proof.Machine.execPmbusRead readings pinMw trimMw s
  | .pStaticWrite a => Sys2Proof.Machine.execPStaticWrite a s
  | .stagedRegisterWrite a => Sys2Proof.Machine.execStagedRegisterWrite a s
  | .commit src => Sys2Proof.Machine.execCommit src s
  | .standbyRequest src => Sys2Proof.Machine.execStandbyRequest src s
  | .runRequest src => Sys2Proof.Machine.execRunRequest src s
  | .standbyExit => Sys2Proof.Machine.execStandbyExit s
  | .offRequest src => Sys2Proof.Machine.execOffRequest src s
  | .cstateEntry u => Sys2Proof.Machine.execCstateEntry u s
  | .islandWake u => Sys2Proof.Machine.execIslandWake u s
  | .islandOff u tag => Sys2Proof.Machine.execIslandOff u tag s
  | .nop u dt => Sys2Proof.Machine.execNop u dt s
  | .endTask u dt => Sys2Proof.Machine.execEndTask u dt s
  | .fence u dt => Sys2Proof.Machine.execFence u dt s
  | .spwr u dt => Sys2Proof.Machine.execSpwr u dt s
  | .brk u dt => Sys2Proof.Machine.execBrk u dt s
  | .add u dt => Sys2Proof.Machine.execAdd u dt s
  | .sub u dt => Sys2Proof.Machine.execSub u dt s
  | .andReg u dt => Sys2Proof.Machine.execAndReg u dt s
  | .orReg u dt => Sys2Proof.Machine.execOrReg u dt s
  | .xorReg u dt => Sys2Proof.Machine.execXorReg u dt s
  | .sll u dt => Sys2Proof.Machine.execSll u dt s
  | .srl u dt => Sys2Proof.Machine.execSrl u dt s
  | .sra u dt => Sys2Proof.Machine.execSra u dt s
  | .mul u dt => Sys2Proof.Machine.execMul u dt s
  | .min u dt => Sys2Proof.Machine.execMin u dt s
  | .max u dt => Sys2Proof.Machine.execMax u dt s
  | .minu u dt => Sys2Proof.Machine.execMinu u dt s
  | .maxu u dt => Sys2Proof.Machine.execMaxu u dt s
  | .slt u dt => Sys2Proof.Machine.execSlt u dt s
  | .sltu u dt => Sys2Proof.Machine.execSltu u dt s
  | .addi u dt => Sys2Proof.Machine.execAddi u dt s
  | .subi u dt => Sys2Proof.Machine.execSubi u dt s
  | .andi u dt => Sys2Proof.Machine.execAndi u dt s
  | .ori u dt => Sys2Proof.Machine.execOri u dt s
  | .xori u dt => Sys2Proof.Machine.execXori u dt s
  | .slli u dt => Sys2Proof.Machine.execSlli u dt s
  | .srli u dt => Sys2Proof.Machine.execSrli u dt s
  | .srai u dt => Sys2Proof.Machine.execSrai u dt s
  | .muli u dt => Sys2Proof.Machine.execMuli u dt s
  | .mini u dt => Sys2Proof.Machine.execMini u dt s
  | .maxi u dt => Sys2Proof.Machine.execMaxi u dt s
  | .minui u dt => Sys2Proof.Machine.execMinui u dt s
  | .maxui u dt => Sys2Proof.Machine.execMaxui u dt s
  | .slti u dt => Sys2Proof.Machine.execSlti u dt s
  | .sltui u dt => Sys2Proof.Machine.execSltui u dt s
  | .ld u dt ecc => Sys2Proof.Machine.execLd u dt ecc s
  | .st u dt => Sys2Proof.Machine.execSt u dt s
  | .br u dt => Sys2Proof.Machine.execBr u dt s
  | .jal u dt => Sys2Proof.Machine.execJal u dt s
  | .jr u dt => Sys2Proof.Machine.execJr u dt s
  | .rdsr u dt => Sys2Proof.Machine.execRdsr u dt s
  | .rdcfg u dt => Sys2Proof.Machine.execRdcfg u dt s
  | .cfg u dt => Sys2Proof.Machine.execCfg u dt s
  | .cfgr u dt => Sys2Proof.Machine.execCfgr u dt s
  | .pcOverrun u => Sys2Proof.Machine.execPcOverrun u s
  | .shapeChange u => Sys2Proof.Machine.execShapeChange u s
  | .lds u dt => Sys2Proof.Machine.execLds u dt s
  | .ldsStart u ecc => Sys2Proof.Machine.execLdsStart u ecc s
  | .mma u dt => Sys2Proof.Machine.execMma u dt s
  | .mmaStart u fz ecc => Sys2Proof.Machine.execMmaStart u fz ecc s
  | .swap u dt => Sys2Proof.Machine.execSwap u dt s
  | .swapEffect u holdCycles => Sys2Proof.Machine.execSwapEffect u holdCycles s
  | .drain u dt => Sys2Proof.Machine.execDrain u dt s
  | .drainStart u ecc => Sys2Proof.Machine.execDrainStart u ecc s
  | .dload u dt ecc => Sys2Proof.Machine.execDload u dt ecc s
  | .uload u dt ecc => Sys2Proof.Machine.execUload u dt ecc s
  | .count u dt ecc => Sys2Proof.Machine.execCount u dt ecc s
  | .merge u dt ecc => Sys2Proof.Machine.execMerge u dt ecc s
  | .scoreboardFree u id => Sys2Proof.Machine.execScoreboardFree u id s
  | .dma u dt => Sys2Proof.Machine.execDma u dt s
  | .dmaStart u ecc => Sys2Proof.Machine.execDmaStart u ecc s
  | .dmaComplete u e => Sys2Proof.Machine.execDmaComplete u e s
  | .sopSignal u dt => Sys2Proof.Machine.execSopSignal u dt s
  | .sopWait u dt => Sys2Proof.Machine.execSopWait u dt s
  | .sopTest u dt => Sys2Proof.Machine.execSopTest u dt s
  | .sopReset u dt => Sys2Proof.Machine.execSopReset u dt s
  | .sopArm u dt => Sys2Proof.Machine.execSopArm u dt s
  | .sopGate u dt => Sys2Proof.Machine.execSopGate u dt s
  | .qpush u dt => Sys2Proof.Machine.execQpush u dt s
  | .qpushRetry u => Sys2Proof.Machine.execQpushRetry u s
  | .qpop u dt => Sys2Proof.Machine.execQpop u dt s
  | .qpopLendRetest u => Sys2Proof.Machine.execQpopLendRetest u s
  | .qflush u dt => Sys2Proof.Machine.execQflush u dt s
  | .qstat u dt => Sys2Proof.Machine.execQstat u dt s
  | .item k => Sys2Proof.Machine.execItem k s
  | .credit k => Sys2Proof.Machine.execCredit k s
  | .flush k => Sys2Proof.Machine.execFlush k s
  | .qdWrite a => Sys2Proof.Machine.execQdWrite a s
  | .qsWrite a => Sys2Proof.Machine.execQsWrite a s
  | .pstoreWrite a => Sys2Proof.Machine.execPstoreWrite a s
  | .swgUcodeWrite a => Sys2Proof.Machine.execSwgUcodeWrite a s
  | .spdWheelWrite a => Sys2Proof.Machine.execSpdWheelWrite a s
  | .pairStateWrite a => Sys2Proof.Machine.execPairStateWrite a s
  | .pairTransitionStart u p => Sys2Proof.Machine.execPairTransitionStart u p s
  | .pairTransitionDone u p => Sys2Proof.Machine.execPairTransitionDone u p s
  | .scrubRead u cancel ecc => Sys2Proof.Machine.execScrubRead u cancel ecc s
  | .scrubLate u => Sys2Proof.Machine.execScrubLate u s
  | .patrolScrub m corrected bad => Sys2Proof.Machine.execPatrolScrub m corrected bad s
  | .read k t => Sys2Proof.Machine.execRead k t s
  | .write k t => Sys2Proof.Machine.execWrite k t s
  | .atomic k t => Sys2Proof.Machine.execAtomic k t s
  | .ledgerAdd k t => Sys2Proof.Machine.execLedgerAdd k t s
  | .ledgerSettle k t => Sys2Proof.Machine.execLedgerSettle k t s
  | .controllerServe m t rowHits ecc => Sys2Proof.Machine.execControllerServe m t rowHits ecc s
  | .readData k => Sys2Proof.Machine.execReadData k s
  | .complete k => Sys2Proof.Machine.execComplete k s
  | .nack k => Sys2Proof.Machine.execNack k s
  | .moveGo a => Sys2Proof.Machine.execMoveGo a s
  | .moveCopyEnd m => Sys2Proof.Machine.execMoveCopyEnd m s
  | .moveSwitch m => Sys2Proof.Machine.execMoveSwitch m s
  | .gets n line => Sys2Proof.Machine.execGets n line s
  | .getx n line want => Sys2Proof.Machine.execGetx n line want s
  | .putm n line => Sys2Proof.Machine.execPutm n line s
  | .pute n line => Sys2Proof.Machine.execPute n line s
  | .dataS n line => Sys2Proof.Machine.execDataS n line s
  | .dataX n line => Sys2Proof.Machine.execDataX n line s
  | .ackX n line => Sys2Proof.Machine.execAckX n line s
  | .wbAck n line => Sys2Proof.Machine.execWbAck n line s
  | .retry n line => Sys2Proof.Machine.execRetry n line s
  | .reissue n line => Sys2Proof.Machine.execReissue n line s
  | .inv n line => Sys2Proof.Machine.execInv n line s
  | .recall n line => Sys2Proof.Machine.execRecall n line s
  | .windowBoundary => Sys2Proof.Machine.execWindowBoundary s
  | .sopMessage k => Sys2Proof.Machine.execSopMessage k s
  | .waiterRecord k => Sys2Proof.Machine.execWaiterRecord k s
  | .wake k => Sys2Proof.Machine.execWake k s
  | .sluiceAck k => Sys2Proof.Machine.execSluiceAck k s
  | .sluicePoll u id => Sys2Proof.Machine.execSluicePoll u id s
  | .treeArrive k => Sys2Proof.Machine.execTreeArrive k s
  | .treeRelease k => Sys2Proof.Machine.execTreeRelease k s
  | .sluiceRegisterWrite a => Sys2Proof.Machine.execSluiceRegisterWrite a s
  | .slcPartWrite a => Sys2Proof.Machine.execSlcPartWrite a s
  | .linkTrainingStart l => Sys2Proof.Machine.execLinkTrainingStart l s
  | .train l info => Sys2Proof.Machine.execTrain l info s
  | .trainingRetry l => Sys2Proof.Machine.execTrainingRetry l s
  | .flitReceive l frame t => Sys2Proof.Machine.execFlitReceive l frame t s
  | .replay l seq => Sys2Proof.Machine.execReplay l seq s
  | .replayRepeat l => Sys2Proof.Machine.execReplayRepeat l s
  | .nackRecord l rec => Sys2Proof.Machine.execNackRecord l rec s
  | .linkDown l => Sys2Proof.Machine.execLinkDown l s
  | .handover l rec => Sys2Proof.Machine.execHandover l rec s
  | .handoverTimeout l => Sys2Proof.Machine.execHandoverTimeout l s
  | .creditStall l => Sys2Proof.Machine.execCreditStall l s
  | .linkSwitchForward k => Sys2Proof.Machine.execLinkSwitchForward k s
  | .linkHoldWrite a => Sys2Proof.Machine.execLinkHoldWrite a s
  | .retrain a => Sys2Proof.Machine.execRetrain a s
  | .unquar a => Sys2Proof.Machine.execUnquar a s
  | .klkTopologyWrite a => Sys2Proof.Machine.execKlkTopologyWrite a s
  | .keeper k => Sys2Proof.Machine.execKeeper k s
  | .rewrite k => Sys2Proof.Machine.execRewrite k s
  | .jobTake e p t => Sys2Proof.Machine.execJobTake e p t s
  | .jobStart e t => Sys2Proof.Machine.execJobStart e t s
  | .batchPop e t => Sys2Proof.Machine.execBatchPop e t s
  | .edgeCheck e t => Sys2Proof.Machine.execEdgeCheck e t s
  | .batchRelax e t => Sys2Proof.Machine.execBatchRelax e t s
  | .jobDeadline e id t => Sys2Proof.Machine.execJobDeadline e id t s
  | .jobResultVisible e => Sys2Proof.Machine.execJobResultVisible e s
  | .towRingWrite a => Sys2Proof.Machine.execTowRingWrite a s
  | .sqTailWrite a => Sys2Proof.Machine.execSqTailWrite a s
  | .packetFetch fn ring host => Sys2Proof.Machine.execPacketFetch fn ring host s
  | .statusWrite fn cq => Sys2Proof.Machine.execStatusWrite fn cq s
  | .cqHeadWrite a => Sys2Proof.Machine.execCqHeadWrite a s
  | .coalTimer fn cq => Sys2Proof.Machine.execCoalTimer fn cq s
  | .cqStallTimeout fn cq => Sys2Proof.Machine.execCqStallTimeout fn cq s
  | .apertureRead fn addr n => Sys2Proof.Machine.execApertureRead fn addr n s
  | .apertureWrite fn addr data ep => Sys2Proof.Machine.execApertureWrite fn addr data ep s
  | .packetNop pid => Sys2Proof.Machine.execPacketNop pid s
  | .queryPartition pid => Sys2Proof.Machine.execQueryPartition pid s
  | .queryCores pid => Sys2Proof.Machine.execQueryCores pid s
  | .queryLinks pid => Sys2Proof.Machine.execQueryLinks pid s
  | .queryTopology pid => Sys2Proof.Machine.execQueryTopology pid s
  | .queryErrors pid => Sys2Proof.Machine.execQueryErrors pid s
  | .partCreate pid tableBase => Sys2Proof.Machine.execPartCreate pid tableBase s
  | .partStop pid => Sys2Proof.Machine.execPartStop pid s
  | .stoppingStart p => Sys2Proof.Machine.execStoppingStart p s
  | .stoppingComplete p => Sys2Proof.Machine.execStoppingComplete p s
  | .partStart pid => Sys2Proof.Machine.execPartStart pid s
  | .partDestroy pid => Sys2Proof.Machine.execPartDestroy pid s
  | .teardownScrubDone p => Sys2Proof.Machine.execTeardownScrubDone p s
  | .partMap pid => Sys2Proof.Machine.execPartMap pid s
  | .partUnmap pid => Sys2Proof.Machine.execPartUnmap pid s
  | .powerPolicy pid => Sys2Proof.Machine.execPowerPolicy pid s
  | .bwPolicy pid => Sys2Proof.Machine.execBwPolicy pid s
  | .launch pid => Sys2Proof.Machine.execLaunch pid s
  | .launchComplete lid => Sys2Proof.Machine.execLaunchComplete lid s
  | .launchTimeout lid => Sys2Proof.Machine.execLaunchTimeout lid s
  | .sluiceOp pid => Sys2Proof.Machine.execSluiceOp pid s
  | .queueKick pid => Sys2Proof.Machine.execQueueKick pid s
  | .abort pid => Sys2Proof.Machine.execAbort pid s
  | .copy pid host => Sys2Proof.Machine.execCopy pid host s
  | .migrate pid choice => Sys2Proof.Machine.execMigrate pid choice s
  | .towLoad pid => Sys2Proof.Machine.execTowLoad pid s
  | .coreFence u cause => Sys2Proof.Machine.execCoreFence u cause s
  | .crossingWatchdog u => Sys2Proof.Machine.execCrossingWatchdog u s
  | .correctedReport source unit => Sys2Proof.Machine.execCorrectedReport source unit s
  | .fallbackMapApply u readable => Sys2Proof.Machine.execFallbackMapApply u readable s
  | .chipFault source unit => Sys2Proof.Machine.execChipFault source unit s
  | .downNoticeTimeout chip => Sys2Proof.Machine.execDownNoticeTimeout chip s
  | .kprFenceWrite a => Sys2Proof.Machine.execKprFenceWrite a s
  | .dbgCtrlEnWrite a => Sys2Proof.Machine.execDbgCtrlEnWrite a s
  | .halt a => Sys2Proof.Machine.execHalt a s
  | .step a => Sys2Proof.Machine.execStep a s
  | .resume a => Sys2Proof.Machine.execResume a s
  | .captureTrigger u => Sys2Proof.Machine.execCaptureTrigger u s
  | .captureCopyDone u => Sys2Proof.Machine.execCaptureCopyDone u s
  | .pmcSelWrite a => Sys2Proof.Machine.execPmcSelWrite a s
  | .kprExpertWrite a => Sys2Proof.Machine.execKprExpertWrite a s
  | .intEnWrite a => Sys2Proof.Machine.execIntEnWrite a s
  | .telemCfgWrite a => Sys2Proof.Machine.execTelemCfgWrite a s
  | .registerWrite a => Sys2Proof.Machine.execRegisterWrite a s
  | .getStatus junctionC hbmC measuredMw => Sys2Proof.Machine.execGetStatus junctionC hbmC measuredMw s
  | .pstateReq target => Sys2Proof.Machine.execPstateReq target s
  | .telemetry => Sys2Proof.Machine.execTelemetry s
  | .ctlPReset => Sys2Proof.Machine.execCtlPReset s
  | .ctlCReset => Sys2Proof.Machine.execCtlCReset s
  | .ctlTReset => Sys2Proof.Machine.execCtlTReset s
  | .ctlKReset => Sys2Proof.Machine.execCtlKReset s
  | .ctlEnterState arg => Sys2Proof.Machine.execCtlEnterState arg s
  | .ctlFence => Sys2Proof.Machine.execCtlFence s
  | .ctlStart arg => Sys2Proof.Machine.execCtlStart arg s
  | .ctlHalt => Sys2Proof.Machine.execCtlHalt s
  | .ctlClear arg => Sys2Proof.Machine.execCtlClear arg s
  | .ctlUndefined w => Sys2Proof.Machine.execCtlUndefined w s
  | .kbRstN => Sys2Proof.Machine.execKbRstN s
  | .kbGrant w => Sys2Proof.Machine.execKbGrant w s
  | .kbGrantTimeout => Sys2Proof.Machine.execKbGrantTimeout s
  | .protoFault port => Sys2Proof.Machine.execProtoFault port s
  | .trqAccess hdr data => Sys2Proof.Machine.execTrqAccess hdr data s
  | .coreKbCfgWrite hdr data => Sys2Proof.Machine.execCoreKbCfgWrite hdr data s
  | .idcode => Sys2Proof.Machine.execIdcode s
  | .samplePreload => Sys2Proof.Machine.execSamplePreload s
  | .extest => Sys2Proof.Machine.execExtest s
  | .extestPulse => Sys2Proof.Machine.execExtestPulse s
  | .extestTrain => Sys2Proof.Machine.execExtestTrain s
  | .hbm1500 => Sys2Proof.Machine.execHbm1500 s
  | .bypass code => Sys2Proof.Machine.execBypass code s
  | .registerRead who off size => Sys2Proof.Machine.execRegisterRead who off size s
  | .configurationRequest fn off => Sys2Proof.Machine.execConfigurationRequest fn off s
  | .undefinedOpcode u dt => Sys2Proof.Machine.execUndefinedOpcode u dt s
  | .pwrEnAssert => Sys2Proof.Machine.execPwrEnAssert s
  | .pwrGoodRise => Sys2Proof.Machine.execPwrGoodRise s
  | .resetNAssert => Sys2Proof.Machine.execResetNAssert s
  | .kbRstNAssert => Sys2Proof.Machine.execKbRstNAssert s
  | .thermNRelease tempC => Sys2Proof.Machine.execThermNRelease tempC s
  | .towdlUrgency e t => Sys2Proof.Machine.execTowdlUrgency e t s
  | .trayQueryResend => Sys2Proof.Machine.execTrayQueryResend s

end Sys2Proof.Machine
end

