-- ==== Sys2Proof/Safety.lean ====
section
/-! DEFINITION. What counts as a safe run: a step that answers a next state, and a state whose tables are in canonical form. -/

namespace Sys2Proof.Machine

/-- External memory in canonical form: addresses strictly rising, no listed zero. -/
abbrev Memory.wf (m : Memory) : Prop := tabWf (0 : Byte) m.cells = true

/-- A step that neither faults nor refuses. -/
def State.safe (s : State) : Prop := ∃ t, step s = .next t

end Sys2Proof.Machine
end

