-- ==== Sys2Proof/WellFormed.lean ====
section
/-! DEFINITION. Well-formed commands: the operands that lie in the ranges the specification gives them. A meaning does not rest on
these checks: a command that fails one changes nothing, or is answered as its rule says. -/

namespace Sys2Proof

/-- A register access of 4 or 8 bytes, aligned to its size (R839; any other one reads 0 and writes nothing). -/
def Access.wf (a : Access) : Bool :=
  (decide (a.size = 4) || decide (a.size = 8)) && decide (a.off % a.size = 0)

/-- An ECC event names a word of the scratchpad's 1,536 rows of 64 words (chapter 07). -/
def EccErr.wf (e : EccErr) : Bool := decide (e.word < 1536 * 64)

/-- An ECC event of external memory names one of the lines of the 2^40 device addresses (R488). -/
def MemErr.wf (e : MemErr) : Bool := decide (e.line < 2 ^ 34)

/-- A frame carries one 256-byte flit (R606). -/
def FrameRx.wf (f : FrameRx) : Bool := decide (f.flit.length = 256)

/-- A TRAIN flit names a link of a chip and a tray count of at most 32 (Table 13-2). -/
def TrainInfo.wf (i : TrainInfo) : Bool := decide (i.link < 24) && decide (i.trayLog2 ≤ 5)

/-- The controllers of a training result belong to its tier (R754, R836). -/
def TrainResult.wf (tier2 : Bool) : TrainResult → Bool
  | .ok _ | .fallBack _ => true
  | .fail ms => ms.all (fun m => if tier2 then decide (8 ≤ m) && decide (m < 20) else decide (m < 8))

/-- An offset, length and data of a host write lie inside one request of at most 4,096 bytes (Table 15-1). -/
def lengthWf (n : Nat) : Bool := decide (0 < n) && decide (n ≤ 4096)

/-- The operands of a command are in range. Rows with no arm of their own take operands that are in range by their type. -/
def Instr.wf : Instr → Bool
  | .trayQuery tray log2 => decide (tray < 32) && decide (log2 ≤ 5)
  | .memoryTrainingDone tier2 r => r.wf tier2
  | .powerRequest _ cycle => decide (cycle < 1000)
  | .grantReceive i | .subWindow i _ => decide (i < 237)
  | .st _ ⟨_, ecc⟩ | .qpush _ ⟨_, ecc⟩ | .qpushRetry ⟨_, ecc⟩ | .qpop _ ⟨_, ecc⟩ | .qpopLendRetest ⟨_, ecc⟩ => ecc.all EccErr.wf
  | .ld _ _ ecc | .ldsStart _ ecc | .mmaStart _ _ ecc | .drainStart _ ecc | .dload _ _ ecc | .uload _ _ ecc | .count _ _ ecc
  | .merge _ _ ecc | .dmaStart _ ecc | .scrubRead _ _ ecc => ecc.all EccErr.wf
  | .memzeroGo a | .pStaticWrite a | .stagedRegisterWrite a | .qdWrite a | .qsWrite a | .pstoreWrite a | .swgUcodeWrite a
  | .spdWheelWrite a | .pairStateWrite a | .moveGo a | .sluiceRegisterWrite a | .slcPartWrite a | .linkHoldWrite a | .retrain a
  | .unquar a | .klkTopologyWrite a | .towRingWrite a | .sqTailWrite a | .cqHeadWrite a | .kprFenceWrite a | .dbgCtrlEnWrite a
  | .halt a | .step a | .resume a | .pmcSelWrite a | .kprExpertWrite a | .intEnWrite a | .telemCfgWrite a | .registerWrite a => a.wf
  | .commit (.register a) => a.wf
  | .registerRead who off size => (Access.mk who off size 0).wf
  | .train _ info => info.wf
  | .flitReceive _ frame _ => frame.wf
  | .apertureRead _ _ ⟨n, ecc⟩ => lengthWf n && ecc.all MemErr.wf
  | .moveCopyEnd ⟨_, ecc⟩ | .moveSwitch ⟨_, ecc⟩ | .jobTake _ _ ⟨_, ecc⟩ | .batchPop _ ⟨_, ecc⟩ | .edgeCheck _ ⟨_, ecc⟩ | .batchRelax _ ⟨_, ecc⟩
  | .packetFetch _ _ ⟨_, ecc⟩ | .launch ⟨_, ecc⟩ | .copy _ ⟨_, ecc⟩ | .towLoad ⟨_, ecc⟩ | .fallbackMapApply _ ⟨_, ecc⟩ => ecc.all MemErr.wf
  | .apertureWrite _ _ data _ => lengthWf data.length
  | .coreFence _ cause => decide (cause < 8)
  | .chipFault source _ => [2, 7, 8, 9].contains source
  | .protoFault port => decide (port < 15)
  | _ => true

end Sys2Proof
end

