-- ==== Sys2Proof/Certificates/Slice0/Obligations.lean ====
section
/-! DEFINITION. The statements for the provers, and the words they are written in. A completion statement says that a command, under
conditions on the state and the operands alone, answers a next state, and what that state holds; `State.settle` in one is the
interrupt messages that the new state causes (R852), which change the record of sent bits and what leaves the part, and nothing else. -/

namespace Sys2Proof.Claims

open Sys2Proof.Machine

/-! ### Words of the statements -/

/-- What leaves the part in this step is interrupt messages of the physical function and nothing else. -/
def IntsOnly (s t : State) : Prop := ∃ l : List Nat, t.out = s.out ++ l.map (Out.msix 16)

/-- Nothing but register fields, cores and the interrupts' own record differs. -/
def RegsCores (s t : State) : Prop :=
  t = { s with regs := t.regs, cores := t.cores, env := { s.env with intLast := t.env.intLast }, out := t.out } ∧ IntsOnly s t

/-- Every register field outside `p` reads as before (instances and copies in the range of the register map). -/
def RegsBut (s t : State) (p : Fld → Nat → Nat → Prop) : Prop :=
  ∀ f i j, i < 256 → j < 32768 → ¬ p f i j → t.reg f i j = s.reg f i j

/-- Every core but `u` is as before. -/
def CoresBut (s t : State) (u : Nat) : Prop := ∀ v, v ≠ u → t.core v = s.core v

/-- What every scalar instruction of core `u` that completes and raises no status changes beside its own results: its cycle count, its
performance counters (R816), and after a STEP the halt (R810). -/
def ScalarFrame (s t : State) (u dt : Nat) (p : Fld → Nat → Nat → Prop) : Prop :=
  RegsCores s t ∧ CoresBut s t u
  ∧ RegsBut s t (fun f i j => p f i j ∨ (i = u ∧ (f = .dbgPmc ∨ (f = .dbgHalted ∧ (s.core u).stepOne = true))))
  ∧ t.core u = { s.core u with cycles := (s.core u).cycles + dt, fired := (t.core u).fired, stepOne := false, pcOver := (t.core u).pcOver }

/-- The same for a narrow access of the scratchpad, whose rows stand in the scoreboard under a number of their own until it is done (R227, R395). -/
def NarrowFrame (s t : State) (u dt : Nat) (rd wr : List (Nat × Nat)) (post : Bool) (p : Fld → Nat → Nat → Prop) : Prop :=
  RegsCores s t ∧ CoresBut s t u
  ∧ RegsBut s t (fun f i j => p f i j ∨ (i = u ∧ (f = .dbgPmc ∨ (f = .dbgHalted ∧ (s.core u).stepOne = true))))
  ∧ t.core u = { s.core u with cycles := (s.core u).cycles + dt, fired := (t.core u).fired, stepOne := false, pcOver := (t.core u).pcOver,
                               sb := (s.core u).sb ++ [⟨(s.core u).nextId, rd, wr, post⟩], nextId := (s.core u).nextId + 1 }

/-- The sequencer of core `u` goes on at the next instruction; past instruction 4,095 it has run off its store (R231). -/
def Advanced (s t : State) (u : Nat) : Prop :=
  if s.pc u = 4095 then t.pc u = 4095 ∧ (t.core u).pcOver = true else t.pc u = (s.pc u + 1) % 4096 ∧ (t.core u).pcOver = (s.core u).pcOver

/-- The register and the immediate form of an ALU operation, its opcode in the register form, and its result on 64-bit words as R357 gives it. -/
structure AluRow where
  reg : CoreId → Nat → Instr
  imm : CoreId → Nat → Instr
  opc : Nat
  res : BitVec 64 → BitVec 64 → BitVec 64

/-- The ALU operations of Table 08-1. -/
def aluTable : List AluRow :=
  [⟨.add, .addi, 0x10, fun a b => a + b⟩, ⟨.sub, .subi, 0x11, fun a b => a - b⟩, ⟨.andReg, .andi, 0x12, fun a b => a &&& b⟩,
   ⟨.orReg, .ori, 0x13, fun a b => a ||| b⟩, ⟨.xorReg, .xori, 0x14, fun a b => a ^^^ b⟩,
   ⟨.sll, .slli, 0x15, fun a b => a <<< (b.toNat % 64)⟩, ⟨.srl, .srli, 0x16, fun a b => a >>> (b.toNat % 64)⟩,
   ⟨.sra, .srai, 0x17, fun a b => a.sshiftRight (b.toNat % 64)⟩, ⟨.mul, .muli, 0x18, fun a b => a * b⟩,
   ⟨.min, .mini, 0x19, fun a b => if a.sle b then a else b⟩, ⟨.max, .maxi, 0x1A, fun a b => if a.sle b then b else a⟩,
   ⟨.minu, .minui, 0x1B, fun a b => if a ≤ b then a else b⟩, ⟨.maxu, .maxui, 0x1C, fun a b => if a ≤ b then b else a⟩,
   ⟨.slt, .slti, 0x1D, fun a b => if a.slt b then 1 else 0⟩, ⟨.sltu, .sltui, 0x1E, fun a b => if a < b then 1 else 0⟩]

/-- The instruction at the program counter of core `u` completes with `v` in its register RD, and goes on. -/
def WritesRd (c : Instr) (s : State) (u dt : Nat) (v : BitVec 64) : Prop :=
  ∃ t, exec c s = .next t
    ∧ t.sreg u (fRd (s.iw u)) = (if fRd (s.iw u) = 0 then 0 else v.toNat)
    ∧ Advanced s t u
    ∧ ScalarFrame s t u dt (fun f i j => (f = .coreSreg ∧ i = u ∧ j = fRd (s.iw u) ∧ j ≠ 0) ∨ (f = .corePc ∧ i = u))

/-- The instruction at the program counter of core `u` completes, writing nothing, and goes on. -/
def Passes (c : Instr) (s : State) (u dt : Nat) : Prop :=
  ∃ t, exec c s = .next t ∧ Advanced s t u ∧ ScalarFrame s t u dt (fun f i _ => f = .corePc ∧ i = u)

/-- The instruction at the program counter of core `u` completes with a jump to `target`, `v` in its register `rd` where `link` says so. -/
def JumpsTo (c : Instr) (s : State) (u dt target : Nat) (link : Option (Nat × Nat)) : Prop :=
  ∃ t, exec c s = .next t ∧ t.pc u = target ∧ (t.core u).pcOver = (s.core u).pcOver
    ∧ (∀ x ∈ link, t.sreg u x.1 = if x.1 = 0 then 0 else x.2)
    ∧ ScalarFrame s t u dt (fun f i j => (f = .corePc ∧ i = u) ∨ ∃ x ∈ link, f = .coreSreg ∧ i = u ∧ j = x.1 ∧ j ≠ 0)

/-- The conditions of BR (Table 08-9) on 64-bit words. -/
def brHolds (cond : Nat) (a b : BitVec 64) : Bool :=
  match cond with
  | 0 => a == b
  | 1 => a != b
  | 2 => a.slt b
  | 3 => !a.slt b
  | 4 => a.ult b
  | 5 => !a.ult b
  | _ => true

/-- A scalar register as a 64-bit word. -/
def srw (s : State) (u n : Nat) : BitVec 64 := BitVec.ofNat 64 (s.sreg u n)

/-- CORE_TSTATUS takes `code` with program counter `pc` where it holds no status yet, and keeps what it holds otherwise (R415). -/
def HoldsStatus (s t : State) (u code pc : Nat) : Prop :=
  if s.reg .tstatusValid u 0 = 1 then
    t.reg .tstatusValid u 0 = 1 ∧ t.reg .tstatusCode u 0 = s.reg .tstatusCode u 0 ∧ t.reg .tstatusPc u 0 = s.reg .tstatusPc u 0
  else t.reg .tstatusValid u 0 = 1 ∧ t.reg .tstatusCode u 0 = code % 256 ∧ t.reg .tstatusPc u 0 = pc % 4096

/-- The fields of CORE_TSTATUS of core `u`. -/
def isTstatus (u : Nat) (f : Fld) (i : Nat) : Prop := i = u ∧ (f = .tstatusCode ∨ f = .tstatusPc ∨ f = .tstatusValid)

/-- The instruction is rejected at issue with `code` and has no other effect (R11, R414, R417). -/
def Rejected (c : Instr) (s : State) (u dt code : Nat) : Prop :=
  ∃ t, exec c s = .next t ∧ HoldsStatus s t u code (s.pc u) ∧ Advanced s t u
    ∧ ScalarFrame s t u dt (fun f i _ => (f = .corePc ∧ i = u) ∨ isTstatus u f i)

/-- A status in the range of CORE_TSTATUS, and where ERRSTOP lets the program go on (R416, R417). -/
def GoesOn (s : State) (u : Nat) : Prop := tErrstop (s.tc u 0) = false ∨ (s.core u).tasked = false


/-- The tile instruction at the program counter of core `u` is accepted: entry `d` stands at the back of queue `q`, its row ranges in the
scoreboard (R227), and the sequencer goes on; queues, accumulators, scratchpad and every other core are as before. -/
def Accepted (c : Instr) (s : State) (u q : Nat) (d : Disp) (rd wr : List (Nat × Nat)) (also : State → Prop) : Prop :=
  ∃ t, exec c s = .next t
    ∧ (t.core u).queue q = (s.core u).queue q ++ [d] ∧ (∀ r, r < 4 → r ≠ q → (t.core u).queue r = (s.core u).queue r)
    ∧ (t.core u).sb = (s.core u).sb ++ (if rd.isEmpty && wr.isEmpty then [] else [⟨d.id, rd, wr, false⟩])
    ∧ (t.core u).spd = (s.core u).spd ∧ (t.core u).acc = (s.core u).acc ∧ Advanced s t u ∧ also t ∧ RegsCores s t ∧ CoresBut s t u
    ∧ RegsBut s t (fun f i _ => i = u ∧ (f = .corePc ∨ f = .dbgPmc ∨ f = .dbgHalted ∨ f = .dbgTraceNext ∨ f = .dbgFull ∨ f = .accSwapPend))

/-- The effective row, line and offset fields of the instruction at the program counter (R359). -/
def effA (s : State) (u lo w : Nat) : Nat := s.idx u (bits (s.iw u) lo w) (fRa (s.iw u))
def effB (s : State) (u lo w : Nat) : Nat := s.idx u (bits (s.iw u) lo w) (fRb (s.iw u))

/-- The effective base of an MMA's LOAD area, or of a DRAIN that uses one: eight times the field, plus RB (R359). -/
def effBase (s : State) (u lo w : Nat) : Nat := s.idx u (8 * bits (s.iw u) lo w) (fRb (s.iw u))

/-- The command completes, and what its next state holds. -/
def Does (c : Instr) (s : State) (p : State → Prop) : Prop := ∃ t, exec c s = .next t ∧ p t

/-- The message that an SOP of core `u` puts into flight: to the bank of its sluice, with its tag, code and value (R399, R562). -/
def sopMsg (s : State) (u : Nat) (op : MsgOp) (sub code arg len : Nat) : Msg :=
  let w := s.iw u
  let p := s.corePart u
  { op := op, srcChip := s.chip, src := u, sub := sub, dstChip := s.sChip w, dst := bankIsland (s.sopTarget u w), part := p,
    flight := if p < 16 then s.flightOf p else 0, tag := s.nextTag % 32768, addr := s.sopTarget u w, code := code, arg := arg, len := len }

end Sys2Proof.Claims

open Sys2Proof Sys2Proof.Machine Sys2Proof.Claims

/-- R357 and R355: each ALU instruction, in both forms, writes its 64-bit result to s[RD], a write to s0 being discarded. -/
def Obligations.AluCompletes : Prop :=
  ∀ (u : CoreId) (dt : Nat) (s : State), ∀ r ∈ aluTable,
    (s.canIssue u r.opc = true → WritesRd (r.reg u dt) s u dt
      (r.res (BitVec.ofNat 64 (s.sreg u (fRa (s.iw u)))) (BitVec.ofNat 64 (s.sreg u (fRb (s.iw u))))))
    ∧ (s.canIssue u (r.opc + 0x10) = true → WritesRd (r.imm u dt) s u dt
      (r.res (BitVec.ofNat 64 (s.sreg u (fRa (s.iw u)))) (BitVec.ofNat 64 (fImm (s.iw u)))))

/-- R408 and R409 with Table 08-9: NOP, a BR taken or not, JAL and JR complete; BR and JAL when the upper bits of IMM are zero, JR when the
value is at most 4,095. -/
def Obligations.BranchesComplete : Prop :=
  ∀ (u : CoreId) (dt : Nat) (s : State),
    (s.canIssue u 0x00 = true → Passes (.nop u dt) s u dt)
    ∧ (s.canIssue u 0x32 = true → bits (s.iw u) 24 3 ≠ 7 → fImm (s.iw u) < 4096 →
        if brHolds (bits (s.iw u) 24 3) (srw s u (fRa (s.iw u))) (srw s u (fRb (s.iw u))) then JumpsTo (.br u dt) s u dt (fImm (s.iw u)) none
        else Passes (.br u dt) s u dt)
    ∧ (s.canIssue u 0x33 = true → fImm (s.iw u) < 4096 →
        JumpsTo (.jal u dt) s u dt (fImm (s.iw u)) (some (fRd (s.iw u), (s.pc u + 1) % 2 ^ 64)))
    ∧ (s.canIssue u 0x34 = true → s.sreg u (fRa (s.iw u)) ≤ 4095 → JumpsTo (.jr u dt) s u dt (s.sreg u (fRa (s.iw u))) none)

/-- RDSR (Table 08-10), RDCFG (R362), CFG and CFGR with a word that R363 does not reject and the shape in force (R362, R364; reserved bits of a word read 0, R7), and a CFG or
CFGR that changes SHAPE: it holds the sequencer at itself until SHAPE_CHANGE, which empties the arrays (R234, R374). -/
def Obligations.ConfigurationCompletes : Prop :=
  ∀ (u : CoreId) (dt : Nat) (s : State),
    (s.canIssue u 0x35 = true → ∀ v ∈ s.special u dt (bits (s.iw u) 64 8), WritesRd (.rdsr u dt) s u dt (BitVec.ofNat 64 v))
    ∧ (s.canIssue u 0x36 = true → bits (s.iw u) 24 2 ≠ 3 → WritesRd (.rdcfg u dt) s u dt (BitVec.ofNat 64 (s.tc u (bits (s.iw u) 24 2))))
    ∧ (∀ c v, (c = .cfg u dt ∧ s.canIssue u 0x40 = true ∧ v = fImm (s.iw u)) ∨ (c = .cfgr u dt ∧ s.canIssue u 0x41 = true ∧ v = s.sreg u (fRa (s.iw u))) →
        (s.core u).hold = .none → cfgCheck (bits (s.iw u) 24 2) v = 0 →
        if bits (s.iw u) 24 2 = 0 ∧ v % 4 ≠ s.reg .coreShape u 0 then
          ∃ t, exec c s = .next t ∧ (t.core u).hold = .shape (v % 2 ^ 29) ∧ RegsCores s t ∧ CoresBut s t u
            ∧ RegsBut s t (fun f i _ => f = .dbgPmc ∧ i = u)
        else ∃ t, exec c s = .next t ∧ t.tc u (bits (s.iw u) 24 2) = (if bits (s.iw u) 24 2 = 0 then v % 2 ^ 29
            else if bits (s.iw u) 24 2 = 1 then v % 2 ^ 36 + bits v 37 24 * 2 ^ 37 else v % 2 ^ 52)
          ∧ Advanced s t u
          ∧ ScalarFrame s t u dt (fun f i j => (f = .corePc ∧ i = u) ∨ (f = .coreTc ∧ i = u ∧ j = bits (s.iw u) 24 2)))
    ∧ (∀ v, (s.core u).hold = .shape v → (s.core u).heldMma = [] → s.fenced u = false →
        ((s.core u).qFeed.all (fun d => decide (d.kind ≠ .lds ∧ d.kind ≠ .mma)) = true) → ((s.core u).qDrain.all (fun d => decide (d.kind ≠ .drain)) = true) →
        ∃ t, exec (.shapeChange u) s = .next t ∧ t.reg .coreShape u 0 = v % 4 ∧ t.tc u 0 = v % 2 ^ 64 ∧ (t.core u).hold = .none
          ∧ (∀ p a i, t.accGet u p a i = AccEntry.zero) ∧ (t.core u).active = none ∧ (t.core u).standby = none
          ∧ (t.core u).recLive = none ∧ (t.core u).recShadow = none ∧ Advanced s t u ∧ RegsCores s t ∧ CoresBut s t u
          ∧ RegsBut s t (fun f i j => i = u ∧ (f = .corePc ∨ f = .coreShape ∨ (f = .coreTc ∧ j = 0) ∨ f = .dbgPmc ∨ f = .dbgHalted)))

/-- R405 to R407: an LD whose check passes and whose bytes are readable writes each word, zero- or sign-extended, to s[RD] onward and leaves the
scratchpad alone; a correctable error that the read met changes nothing of this. An ST writes exactly its bytes, little-endian, and
takes away the poison of the words it writes whole (R322); one narrower than a word reads its word first, and what that read met is
counted and marked as any read's is (R340, R341). Each records its rows in the scoreboard (R227, R395), an ST until it is done (R407). -/
def Obligations.LoadStoreComplete : Prop :=
  ∀ (u : CoreId) (dt : Nat) (s : State) (ecc : List EccErr),
    let w := s.iw u
    let a := s.ldOff u w
    let n := fSize w * fNw w
    (s.core u).sb.length < 64 →
    (s.canIssue u 0x30 = true → s.ldCheck u w (fRd w) = 0 → (s.core u).conflict [rowsOf a n] [] = false →
      let m := (s.tick u dt).eccErrs u (eccAt a n ecc)
      m.spdStatus u a n = 0 →
      ∃ t, exec (.ld u dt ecc) s = .next t
        ∧ (∀ i, i < fNw w → fRd w + i ≠ 0 → t.sreg u (fRd w + i) =
            (if w.testBit 26 then ((BitVec.ofNat (8 * fSize w) (m.spdNum u (a + i * fSize w) (fSize w))).signExtend 64).toNat
             else m.spdNum u (a + i * fSize w) (fSize w)))
        ∧ (t.core u).spd = (s.core u).spd ∧ Advanced s t u
        ∧ (eccAt a n ecc = [] → NarrowFrame s t u dt [rowsOf a n] [] false
            (fun f i j => (f = .corePc ∧ i = u) ∨ (f = .coreSreg ∧ i = u ∧ fRd w ≤ j ∧ j < fRd w + fNw w))))
    ∧ (s.canIssue u 0x31 = true → s.ldCheck u w (fRb w) = 0 → (s.core u).conflict [] [rowsOf a n] = false →
      let met := if fSize w < 8 then eccAt a n ecc else []
      let m := (s.tick u dt).eccErrs u met
      s.spdAnyOff u a n = false → (fSize w = 8 ∨ m.spdAnyPoison u a n = false) →
      ∃ t, exec (.st u ⟨dt, ecc⟩) s = .next t
        ∧ (∀ i, i < n → t.spdByte u (a + i) = BitVec.ofNat 8 (s.sreg u (fRb w + i / fSize w) / 256 ^ (i % fSize w)))
        ∧ (∀ b, b < a ∨ a + n ≤ b → t.spdByte u b = s.spdByte u b)
        ∧ (∀ k, k ∈ (t.core u).spdPsn ↔ k ∈ (m.core u).spdPsn ∧ ¬ (a ≤ 8 * k ∧ 8 * k + 8 ≤ a + n))
        ∧ (t.core u).sb = (s.core u).sb ++ [⟨(s.core u).nextId, [], [rowsOf a n], true⟩]
        ∧ Advanced s t u ∧ CoresBut s t u
        ∧ (met = [] → RegsCores s t ∧ RegsBut s t (fun f i _ => i = u ∧ (f = .corePc ∨ f = .dbgPmc ∨ f = .dbgHalted))))

/-- R414, R415 and R417: an instruction rejected at issue holds its status and its program counter in CORE_TSTATUS where none is held, changes nothing
else, and the program goes on where ERRSTOP is 0: an undefined opcode or a reserved OP of an SOP (R354), an LD or ST that R405 or R406 rejects, a BR or JAL that R408
rejects, an RDSR of another selector, an RDCFG, CFG or CFGR that R362 or R363 rejects, and an SPWR of the reserved code. -/
def Obligations.RejectedAtIssue : Prop :=
  ∀ (u : CoreId) (dt : Nat) (s : State), GoesOn s u →
    let w := s.iw u
    (s.canIssue u (fOpc w) = true → opDefined (fOpc w) = false → Rejected (.undefinedOpcode u dt) s u dt St.opBad)
    ∧ (s.canIssue u 0xA0 = true → 6 ≤ sOp w → Rejected (.undefinedOpcode u dt) s u dt St.opBad)
    ∧ (∀ ecc, s.canIssue u 0x30 = true → s.ldCheck u w (fRd w) ≠ 0 → (s.core u).sb.length < 64 →
        (s.core u).conflict [rowsOf (s.ldOff u w) (fSize w * fNw w)] [] = false → Rejected (.ld u dt ecc) s u dt (s.ldCheck u w (fRd w)))
    ∧ (∀ ecc, s.canIssue u 0x31 = true → s.ldCheck u w (fRb w) ≠ 0 → (s.core u).sb.length < 64 →
        (s.core u).conflict [] [rowsOf (s.ldOff u w) (fSize w * fNw w)] = false → Rejected (.st u ⟨dt, ecc⟩) s u dt (s.ldCheck u w (fRb w)))
    ∧ (s.canIssue u 0x32 = true → bits w 24 3 = 7 ∨ 4096 ≤ fImm w → Rejected (.br u dt) s u dt St.opBad)
    ∧ (s.canIssue u 0x33 = true → 4096 ≤ fImm w → Rejected (.jal u dt) s u dt St.opBad)
    ∧ (s.canIssue u 0x35 = true → 5 < bits w 64 8 → Rejected (.rdsr u dt) s u dt St.opBad)
    ∧ (s.canIssue u 0x36 = true → bits w 24 2 = 3 → Rejected (.rdcfg u dt) s u dt St.cfgBad)
    ∧ (s.canIssue u 0x40 = true → (s.core u).hold = .none → cfgCheck (bits w 24 2) (fImm w) ≠ 0 →
        Rejected (.cfg u dt) s u dt (cfgCheck (bits w 24 2) (fImm w)))
    ∧ (s.canIssue u 0x41 = true → (s.core u).hold = .none → cfgCheck (bits w 24 2) (s.sreg u (fRa w)) ≠ 0 →
        Rejected (.cfgr u dt) s u dt (cfgCheck (bits w 24 2) (s.sreg u (fRa w))))
    ∧ (s.canIssue u 0x03 = true → (s.core u).hold = .none → bits w 32 2 = 2 → Rejected (.spwr u dt) s u dt St.opBad)

/-- R410 to R413: FENCE once the queues it names are done, BRK outside and in debug mode, an SPWR to RETAIN or OFF, an SPWR to ON of pairs that
are ON, which passes, or that are not, which holds the sequencer until they are, and END once everything is done: the sequencer stops, HALTED is set, and the launch notes the held status, or OK (R412). -/
def Obligations.TaskControlCompletes : Prop :=
  ∀ (u : CoreId) (dt : Nat) (s : State),
    let w := s.iw u
    (s.canIssue u 0x02 = true → (∀ q, q < 4 → w.testBit (24 + q) = true → (s.core u).queueDone q = true) →
        (w.testBit 28 = true → (s.core u).noPosted = true) → Passes (.fence u dt) s u dt)
    ∧ (s.canIssue u 0x04 = true → s.reg .dbgEn u 0 = 0 → Passes (.brk u dt) s u dt)
    ∧ (s.canIssue u 0x04 = true → s.reg .dbgEn u 0 = 1 → ∃ t, exec (.brk u dt) s = .next t ∧ t.reg .dbgHalted u 0 = 1 ∧ Advanced s t u
        ∧ RegsCores s t ∧ CoresBut s t u ∧ RegsBut s t (fun f i _ => i = u ∧ (f = .corePc ∨ f = .dbgPmc ∨ f = .dbgHalted)))
    ∧ (s.canIssue u 0x03 = true → (s.core u).hold = .none → bits w 32 2 < 2 →
        ∃ t, exec (.spwr u dt) s = .next t ∧ Advanced s t u
          ∧ (∀ p, p < 8 → t.pairAsked u p = if (bits w 24 8).testBit p then bits w 32 2 else s.pairAsked u p)
          ∧ (∀ p, p < 8 → t.pairIs u p = s.pairIs u p) ∧ (t.core u).spd = (s.core u).spd ∧ RegsCores s t ∧ CoresBut s t u
          ∧ RegsBut s t (fun f i _ => i = u ∧ (f = .corePc ∨ f = .dbgPmc ∨ f = .dbgHalted ∨ f = .spdPairState)))
    ∧ (s.canIssue u 0x03 = true → (s.core u).hold = .none → bits w 32 2 = 3 → (s.askPairs u (bits w 24 8) 3).pairsOn u (bits w 24 8) = true →
        ∃ t, exec (.spwr u dt) s = .next t ∧ Advanced s t u ∧ t.pairsOn u (bits w 24 8) = true ∧ (t.core u).spd = (s.core u).spd)
    ∧ (s.canIssue u 0x03 = true → (s.core u).hold = .none → bits w 32 2 = 3 → (s.askPairs u (bits w 24 8) 3).pairsOn u (bits w 24 8) = false →
        ∃ t, exec (.spwr u dt) s = .next t ∧ (t.core u).hold = .spwr (bits w 24 8) ∧ t.pc u = s.pc u
          ∧ ∀ p, p < 8 → t.pairAsked u p = if (bits w 24 8).testBit p then 3 else s.pairAsked u p)
    ∧ (∀ m, s.canIssue u 0x03 = true → (s.core u).hold = .spwr m → s.pairsOn u m = true →
        ∃ t, exec (.spwr u dt) s = .next t ∧ (t.core u).hold = .none ∧ Advanced s t u)
    ∧ (s.canIssue u 0x01 = true → (∀ q, q < 4 → (s.core u).queueDone q = true) → (s.core u).noPosted = true →
        ∃ t, exec (.endTask u dt) s = .next t ∧ t.reg .coreRun u 0 = 0 ∧ t.reg .coreHalted u 0 = 1 ∧ (t.core u).tasked = false
          ∧ (t.core u).waits = [] ∧ t.pc u = s.pc u ∧ CoresBut s t u
          ∧ ∀ l ∈ s.host.launches, u.val ∈ l.cores → (s.core u).launch = some l.lid → (∀ e ∈ l.ended, e.1 ≠ u.val) →
              ∃ l' ∈ t.host.launches, l'.lid = l.lid ∧ l'.ended = l.ended ++ [if s.reg .tstatusValid u 0 = 1 then
                (u.val, s.reg .tstatusCode u 0, s.reg .tstatusPc u 0) else (u.val, 0, s.pc u)])

/-- R231, R409 and R418: running past instruction 4,095, or a JR beyond it, holds PC_RANGE and ends the task whatever ERRSTOP says; and under
ERRSTOP = 1 any rejected instruction stops it (R416): from then on the sequencer issues nothing. -/
def Obligations.TaskStops : Prop :=
  ∀ (u : CoreId) (dt : Nat) (s : State),
    (s.runs u = true → (s.core u).pcOver = true → (s.core u).tasked = true → (s.core u).stopping = false →
        (s.core u).quiet = true →
        ∃ t, exec (.pcOverrun u) s = .next t ∧ HoldsStatus s t u St.pcRange 4095 ∧ t.reg .coreRun u 0 = 0 ∧ t.reg .coreHalted u 0 = 1)
    ∧ (s.canIssue u 0x34 = true → 4095 < s.sreg u (fRa (s.iw u)) → (s.core u).tasked = true →
        ∃ t, exec (.jr u dt) s = .next t ∧ HoldsStatus s t u St.pcRange (s.pc u) ∧ ∀ op, t.canIssue u op = false)
    ∧ (s.canIssue u (fOpc (s.iw u)) = true → opDefined (fOpc (s.iw u)) = false → tErrstop (s.tc u 0) = true → (s.core u).tasked = true →
        ∃ t, exec (.undefinedOpcode u dt) s = .next t ∧ HoldsStatus s t u St.opBad (s.pc u) ∧ ∀ op, t.canIssue u op = false)

/-- R366 to R376 and R386, R387: an LDS, MMA, SWAP, DRAIN or DMA that passes its checks and is not held (R226, R380) enters its queue with its
copy of the state; an MMA writes the set record of the live set, a SWAP exchanges the two records and sets SWAP_PEND (R374, Table 06-12). -/
def Obligations.TileInstructionsIssue : Prop :=
  ∀ (u : CoreId) (dt : Nat) (s : State),
    let w := s.iw u
    let t0 := s.tc u 0
    let c := s.core u
    (s.canIssue u 0x50 = true →
      let ds := s.descOf u (bits w 24 4)
      let rd := s.ldsRows u t0 (s.tc u 1) (s.tc u 2) (effA s u 28 24) (ldsSpan t0) (effB s u 52 24) ds
      c.heldBy 0 rd [] = false → (tConv t0 = true ∨ c.loadPending [bits w 24 4] (decide (ds.layout = 15)) = false) →
      s.ldsCheck u t0 (effA s u 28 24) (effB s u 52 24) ds = 0 →
      Accepted (.lds u dt) s u 0 (s.mkDisp u .lds (effA s u 28 24) (effB s u 52 24) 0 0 [s.dslot u (bits w 24 4)] none) rd []
        (fun t => (t.core u).recLive = c.recLive ∧ (t.core u).recShadow = c.recShadow))
    ∧ (s.canIssue u 0x51 = true →
      let ds := s.descOf u (bits w 24 4)
      let lb := if mmaFlag w = 2 then effBase s u 87 17 else 0
      let rd := s.mmaReads u w t0 (effA s u 28 24) lb ds
      c.heldBy 0 rd [] = false → c.loadPending [bits w 24 4] (decide (ds.layout = 15)) = false →
      s.mmaCheck u w t0 (effA s u 28 24) lb ds = 0 →
      Accepted (.mma u dt) s u 0 (s.mkDisp u .mma (effA s u 28 24) lb 0 0 [s.dslot u (bits w 24 4)] none) rd []
        (fun t => (t.core u).recLive = some ⟨tFmt t0, tPeop t0, tTreeop t0, tComp t0, ds.rscale, ds.rscaleB⟩
          ∧ (t.core u).recShadow = c.recShadow))
    ∧ (s.canIssue u 0x60 = true → c.heldBy 1 [] [] = false →
      Accepted (.swap u dt) s u 1 (s.mkDisp u .swap 0 0 0 0 [] none) [] []
        (fun t => (t.core u).recLive = c.recShadow ∧ (t.core u).recShadow = c.recLive ∧ t.reg .accSwapPend u 0 = 1))
    ∧ (s.canIssue u 0x61 = true →
      let base := if drRaw w || drBias w then effBase s u 101 17 else 0
      let xc := if drClamp w && !(drRaw w) then s.sreg u (bits w 91 5) else 0
      let xt := if (decide (drThr w = 2) || decide (drThr w = 3)) && !(drRaw w) then s.sreg u (bits w 96 5) else 0
      let slots := if drRaw w then [] else ((List.range (pieces t0)).map (fun k => bits w 24 4 + k)).filter (fun k => decide (k < 16))
      let rr := drainRows w t0 (effA s u 28 24) base (s.drainRec u) (slots.map (s.descOf u))
      c.heldBy 1 rr.1 rr.2 = false → c.loadPending slots false = false →
      drainCheck w t0 (effA s u 28 24) base xc xt (s.drainRec u) (slots.map (s.descOf u)) = 0 →
      Accepted (.drain u dt) s u 1
        (s.mkDisp u .drain (effA s u 28 24) base xc xt (slots.map (s.dslot u)) (some (s.drainRec u))) rr.1 rr.2
        (fun t => (t.core u).recLive = c.recLive ∧ (t.core u).recShadow = c.recShadow))
    ∧ (s.canIssue u 0x80 = true →
      let desc := effA s u 27 20
      let row0 := effB s u 47 11
      let nr := bits w 58 11 + 1
      let rows := [(row0, row0 + nr - 1)]
      let rd := if w.testBit 26 then rows ++ byteRows desc (desc + 64) else byteRows desc (desc + 64)
      let wr := if w.testBit 26 then [] else rows
      c.heldBy 2 rd wr = false → bits w 24 2 ≠ 3 → desc < 0xC0000 → desc % 64 = 0 → row0 + nr ≤ 1536 →
      (w.testBit 69 = true → s.ownSluice u (bits w 70 14) = true) →
      Accepted (.dma u dt) s u 2 (s.mkDisp u .dma desc row0 nr 0 [] none) rd wr
        (fun t => (t.core u).xfers = c.xfers))

/-- No entry of the sparse front-end queue of core `u` can start: it is empty, or a GATE stands first. -/
def Sys2Proof.Claims.FrontWaits (s : State) (u : Nat) : Prop := ∀ d, (s.core u).qFront.head? = some d → ∃ k, d.kind = .gate k

/-- LDS_START, MMA_START, SWAP_EFFECT and DRAIN_START run the front entry of their queue. An LDS whose decode succeeds fills the standby buffer and
KNEXT (R183, R235), one whose decode stops leaves it empty and says where (R173); an MMA whose decode succeeds takes the standby tile,
if any, unless it starts in the cycle in which that tile's load completes (R267), and lands its promotions (R236, R269, R288); a SWAP exchanges the sets (R286); a RAW DRAIN writes each entry of the shadow set
in the full-width layout at its place (R293), any other its encoded planes; a MERGE that waited behind it follows (R425), so that here none may. `asIssued` shows each the bank pairs as they stood for its issue (R331,
log 26). -/
def Obligations.TileInstructionsStart : Prop :=
  ∀ (u : CoreId) (s : State), GoesOn s u →
    (∀ ecc d, s.front u 0 .lds = some d → (s.core u).standby = none →
      let v := (s.asIssued u d.id).popFront u 0
      let m := v.eccErrs u (eccIn (v.ldsRead u d ecc) ecc)
      ∃ t, exec (.ldsStart u ecc) s = .next t ∧ (t.core u).qFeed = (s.core u).qFeed.tail ∧ (t.core u).spd = (s.core u).spd
        ∧ (∀ x, m.ldsTile u d = .ok x → (t.core u).standby = some x ∧ (t.core u).standbyBad = false
            ∧ t.reg .swgKnext u 0 = x.knext % 2 ^ Fld.swgKnext.spec.w)
        ∧ (∀ e, m.ldsTile u d = .error e → (t.core u).standby = none ∧ (t.core u).standbyBad = true
            ∧ t.reg .swgErr u 0 = 1 ∧ t.reg .swgCode u 0 = e.2 % 256 ∧ t.reg .swgLine u 0 = e.1 % 2 ^ Fld.swgLine.spec.w)
        ∧ CoresBut s t u ∧ t.mem = s.mem)
    ∧ (∀ fz ecc d x ls, s.front u 0 .mma = some d → ((s.core u).standbyBad = false ∨ fz.atLoad = true) →
      (if (s.core u).standby.isSome && !fz.atLoad then (s.core u).standby else (s.core u).active) = some x →
      let c := s.core u
      let v := (s.asIssued u d.id).popFront u 0
      let m := ((v.setCore u { v.core u with active := some x, standby := if fz.atLoad then c.standby else none }).freezes u fz).eccErrs u
        (eccIn (v.mmaReads u d.word d.tc0 d.ea d.eb (d.desc 0)) ecc)
      m.decodeLines u (d.desc 0) x.k0 (x.knext - x.k0) (mmaLines d.word d.ea) = .ok ls →
      ∃ t, exec (.mmaStart u fz ecc) s = .next t ∧ (t.core u).qFeed = c.qFeed.tail ∧ (t.core u).active = some x
        ∧ (t.core u).standby = (if fz.atLoad then c.standby else none)
        ∧ (t.core u).acc = ((m.landMma u (m.formMma u d x ls).1).core u).acc
        ∧ t.reg .coreMmaCycles u 0 = (s.reg .coreMmaCycles u 0 + fz.cycles) % 2 ^ Fld.coreMmaCycles.spec.w
        ∧ (t.core u).spd = c.spd ∧ CoresBut s t u ∧ t.mem = s.mem)
    ∧ (∀ hold d, s.front u 1 .swap = some d → (∀ x ∈ (s.core u).qFeed, x.kind = .mma → d.id ≤ x.id) → (s.core u).heldMma = [] →
      s.reg .accLive u 0 < 2 →
      ∃ t, exec (.swapEffect u hold) s = .next t ∧ (t.core u).qDrain = (s.core u).qDrain.tail
        ∧ t.reg .accLive u 0 = 1 - s.reg .accLive u 0 ∧ (t.core u).acc = (s.core u).acc
        ∧ t.reg .accSwaps u 0 = (s.reg .accSwaps u 0 + 1) % 2 ^ Fld.accSwaps.spec.w
        ∧ t.reg .accSwapPend u 0 = b2n ((s.core u).qDrain.tail.any (fun x => decide (x.kind = .swap)))
        ∧ CoresBut s t u ∧ t.mem = s.mem)
    ∧ (∀ ecc d r, s.front u 1 .drain = some d → FrontWaits s u → d.srec = some r → drRaw d.word = true →
      s.spdAnyOff u d.eb (fullBytes (tShape d.tc0) d.word) = false →
      ∃ t, exec (.drainStart u ecc) s = .next t ∧ (t.core u).qDrain = (s.core u).qDrain.tail
        ∧ (∀ a' i n, a' < (onesOf 4 (mmaMask d.word)).length → i < mmaRows d.word → n < shapeN (tShape d.tc0) →
            t.spdNum u (d.eb + ((a' * mmaRows d.word + i) * shapeN (tShape d.tc0) + n) * 8) 8
              = fullWidth r (s.accGet u (1 - s.reg .accLive u 0) (nth (onesOf 4 (mmaMask d.word)) a' 0) (entryIdx (tShape d.tc0) (mmaB d.word) i n)))
        ∧ (∀ b, b < d.eb ∨ d.eb + fullBytes (tShape d.tc0) d.word ≤ b → t.spdByte u b = s.spdByte u b)
        ∧ CoresBut s t u ∧ t.mem = s.mem)
    ∧ (∀ ecc d r, s.front u 1 .drain = some d → FrontWaits s u → d.srec = some r → drRaw d.word = false →
      let m := ((s.asIssued u d.id).popFront u 1).eccErrs u (eccIn (drainRows d.word d.tc0 d.ea d.eb r (d.descs.map parseDesc)).1 ecc)
      let x := m.drainLines u d r
      ∃ t, exec (.drainStart u ecc) s = .next t ∧ (t.core u).qDrain = (s.core u).qDrain.tail
        ∧ (t.core u).spd = (((List.range d.descs.length).foldl (fun (n : State) k => (n.drainPlane u d (k + 1) x).1.s) m).core u).spd
        ∧ CoresBut s t u ∧ t.mem = s.mem)

/-- R379, R381, R206 and R383: with nothing before them in the sparse front-end queue, a DLOAD fills its slot with its 64 bytes, a ULOAD its words, and
a COUNT writes the running counts of the elements of its lines that do not count as zero; a MERGE writes what the encoder makes of the
merged lines (R202). Behind a GATE (R402), and where a STEP halts the core again (R810), a DLOAD waits in the queue, and so does a MERGE behind a DRAIN that waits (R425). `asIssued` is as in TileInstructionsStart. -/
def Obligations.SparseFrontCompletes : Prop :=
  ∀ (u : CoreId) (dt : Nat) (ecc : List EccErr) (s : State), GoesOn s u →
    let w := s.iw u
    let c := s.core u
    (s.canIssue u 0x70 = true → c.heldBy 3 (byteRows (effA s u 28 20) (effA s u 28 20 + 64)) [] = false →
      effA s u 28 20 < 0xC0000 → effA s u 28 20 % 64 = 0 → s.noSlot6 u = false →
      let src := effA s u 28 20
      let rd := byteRows src (src + 64)
      let m := (s.issueTile u dt 3 (s.mkDisp u .dload src 0 0 0 [] none) rd []).eccErrs u (eccIn rd ecc)
      (c.stepOne = false → c.qFront = [] → m.spdStatus u src 64 = 0 →
        ∃ t, exec (.dload u dt ecc) s = .next t ∧ t.dslot u (bits w 24 4) = s.spdNum u src 64 ∧ (t.core u).qFront = []
          ∧ Advanced s t u ∧ (t.core u).spd = c.spd ∧ CoresBut s t u ∧ t.mem = s.mem)
      ∧ (c.loadPending [bits w 24 4] false = false → (c.stepOne = true ∨ ∃ g l k, c.qFront = g :: l ∧ g.kind = .gate k) →
        ∃ t, exec (.dload u dt ecc) s = .next t ∧ (t.core u).qFront = c.qFront ++ [s.mkDisp u .dload src 0 0 0 [] none] ∧ Advanced s t u))
    ∧ (s.canIssue u 0x71 = true →
      let src := effA s u 44 20
      let n := bits w 34 10 + 1
      let rd := byteRows src (src + 4 * n)
      c.heldBy 3 rd [] = false → src + 4 * n ≤ 0xC0000 → src % 64 = 0 → s.noSlot6 u = false → bits w 24 10 + n ≤ 1024 →
      let m := (s.issueTile u dt 3 (s.mkDisp u .uload src 0 0 0 [] none) rd []).eccErrs u (eccIn rd ecc)
      c.stepOne = false → c.qFront = [] → m.spdStatus u src (4 * n) = 0 →
        ∃ t, exec (.uload u dt ecc) s = .next t ∧ (∀ i, i < n → t.uword u (bits w 24 10 + i) = s.spdNum u (src + 4 * i) 4)
          ∧ (∀ i, i < bits w 24 10 ∨ bits w 24 10 + n ≤ i → t.uword u i = s.uword u i) ∧ (t.core u).qFront = []
          ∧ Advanced s t u ∧ (t.core u).spd = c.spd ∧ CoresBut s t u ∧ t.mem = s.mem)
    ∧ (s.canIssue u 0x72 = true →
      let ds := s.descOf u (bits w 24 4)
      let l0 := effA s u 28 24
      let dst := effB s u 76 20
      let n := cntNl w + 1
      let rd := s.opRows u ds l0 (min n (ds.lines - l0)) 0 ds.len
      let wr := byteRows dst (dst + 4 * n)
      c.heldBy 3 rd wr = false → c.loadPending [bits w 24 4] (decide (ds.layout = 15)) = false →
      dst % 8 = 0 → dst + 4 * n ≤ 0xC0000 → l0 + n ≤ ds.lines → ds.bad = false → (ds.fmt = 0 ∨ isOperand ds.fmt = true) → ds.scaleRole = false →
      s.noSlot6 u = false → c.stepOne = false → c.qFront = [] → s.spdAnyOff u dst (4 * n) = false →
      let m := (((s.issueTile u dt 3 (s.mkDisp u .count l0 dst 0 0 [s.dslot u (bits w 24 4)] none) rd wr).eccErrs u (eccIn rd ecc)).asIssued u c.nextId).popFront u 3
      ∀ ls, m.decodeLines u ds 0 ds.len ((List.range n).map (fun i => l0 + i)) = .ok ls →
        ∃ t, exec (.count u dt ecc) s = .next t
          ∧ (∀ i, i < n → t.spdNum u (dst + 4 * i) 4 = (((ls.take (i + 1)).map (fun x => (liveElts ds x.2).length)).sum) % 2 ^ 32)
          ∧ (∀ b, b < dst ∨ dst + 4 * n ≤ b → t.spdByte u b = s.spdByte u b) ∧ (t.core u).qFront = []
          ∧ Advanced s t u ∧ CoresBut s t u ∧ t.mem = s.mem)
    ∧ (s.canIssue u 0x73 = true →
      let l0 := effA s u 39 24
      let a := s.descOf u (mrgA w)
      let b := s.descOf u (mrgB w)
      let o := s.descOf u (mrgO w)
      let n := mrgNl w + 1
      let rd := s.opRows u a l0 (min n (a.lines - l0)) 0 a.len ++ s.opRows u b l0 (min n (b.lines - l0)) 0 b.len
        ++ (if o.ptrOut && decide (l0 ≠ 0) then byteRows (o.ptrB + 4 * l0) (o.ptrB + 4 * l0 + 4) else [])
      let wr := o.outRows l0 n o.len
      c.heldBy 3 rd wr = false → c.loadPending [mrgA w, mrgB w, mrgO w] (decide (a.layout = 15) || decide (b.layout = 15)) = false →
      s.mergeCheck u w (s.tc u 0) l0 a b o = 0 → c.stepOne = false → c.qFront = [] →
      let d := s.mkDisp u .merge l0 0 0 0 [s.dslot u (mrgA w), s.dslot u (mrgB w), s.dslot u (mrgO w)] none
      let m := (((s.issueTile u dt 3 d rd wr).eccErrs u (eccIn rd ecc)).asIssued u d.id).popFront u 3
      let r := m.mergeLines u w a b (tSat (s.tc u 0)) ((List.range n).map (fun i => l0 + i))
      (c.behindDrain d = true → ∃ t, exec (.merge u dt ecc) s = .next t ∧ (t.core u).qFront = [d] ∧ (t.core u).spd = c.spd ∧ Advanced s t u
          ∧ CoresBut s t u ∧ t.mem = s.mem)
      ∧ (c.behindDrain d = false → r.2.2 = none →
        ∃ t, exec (.merge u dt ecc) s = .next t
          ∧ (t.core u).spd = ((m.encodeLines u o (tSat (s.tc u 0)) 0 o.len [] r.1.length r.1).1.s.core u).spd
          ∧ (t.core u).qFront = [] ∧ Advanced s t u ∧ CoresBut s t u ∧ t.mem = s.mem))

/-- R228, R389 to R391, R492 and R498: SCOREBOARD_FREE takes exactly its entry out; DMA_START gives the front transfer to a free engine, the
one ENG names or the first free one, with the descriptor it read, and a descriptor that cannot be used ends it with its status and no
request; DMA_COMPLETE frees the engine, records the first failing status, and with SIG signals the sluice once. `asIssued` is as in
TileInstructionsStart. -/
def Obligations.DmaEngineCompletes : Prop :=
  ∀ (u : CoreId) (s : State),
    (∀ id, (∃ e ∈ (s.core u).sb, e.id = id) →
      (∀ d ∈ (s.core u).qFeed ++ (s.core u).qDrain ++ (s.core u).qDma ++ (s.core u).qFront, d.id ≠ id) →
      (∀ x ∈ (s.core u).xfers, x.id = id → x.dir = 1 ∧ x.todo = []) → (∀ m chip core q cell st, (s.core u).hold ≠ .pushMid id m chip core q cell st) →
      (s.core u).stopping = false →
      Does (.scoreboardFree u id) s (fun t => (t.core u) = { s.core u with sb := (s.core u).sb.filter (fun e => decide (e.id ≠ id)) }
        ∧ RegsCores s t ∧ CoresBut s t u ∧ t.regs = s.regs))
    ∧ (∀ ecc d e, s.front u 2 .dma = some d → e < 2 → (s.core u).xfer e = none →
      (bits d.word 24 2 = e ∨ (bits d.word 24 2 = 2 ∧ (e = 0 ∨ (s.core u).xfer 0 ≠ none))) →
      let m := ((s.asIssued u d.id).popFront u 2).eccErrs u ecc
      m.spdStatus u d.ea 64 = 0 →
      let desc := m.spdNum u d.ea 64
      let bad := descCheck desc (b2n (d.word.testBit 26)) (512 * d.eb) (512 * (d.eb + d.xc))
      Does (.dmaStart u ecc) s (fun t => t.reg .dmaBusy u e = 1 ∧ (t.core u).qDma = (s.core u).qDma.tail ∧ t.mem = s.mem ∧ CoresBut s t u
        ∧ ∃ x ∈ (t.core u).xfers, x.eng = e ∧ x.id = d.id ∧ x.desc = desc ∧ x.dir = b2n (d.word.testBit 26) ∧ x.sig = d.word.testBit 69
            ∧ x.sluice = bits d.word 70 14 ∧ (bad ≠ 0 → x.fail = bad ∧ x.todo = [] ∧ x.out = [] ∧ t.net = s.net)))
    ∧ (∀ (e : Fin 2) x, (s.core u).xfer e = some x → x.todo = [] → x.out = [] → GoesOn s u → (s.core u).stopping = false →
      Does (.dmaComplete u e) s (fun t => t.reg .dmaBusy u e = 0 ∧ (t.core u).xfer e = none
        ∧ (x.fail ≠ 0 → t.reg .dmaCode u e = x.fail % 2 ^ Fld.dmaCode.spec.w ∧ HoldsStatus s t u x.fail x.pc)
        ∧ (x.sig = false → t.net = s.net)
        ∧ (x.sig = true → ∃ m : Msg, t.net = s.net ++ [m] ∧ m.op = .sop ∧ m.code = Sop.signal ∧ m.arg = 1 ∧ m.addr = x.sluice
            ∧ m.dstChip = s.chip ∧ m.dst = bankIsland x.sluice)
        ∧ (t.core u).spd = (s.core u).spd ∧ t.mem = s.mem ∧ CoresBut s t u))

/-- R399 to R404: SIGNAL, RESET and ARM are posted with the instructions that ORD names and go on; WAIT and GATE put a record into the wait table
and send it to the bank, WAIT holding the sequencer and GATE leaving an entry in each queue that GQ names; TEST of a sluice of this chip, behind the core's
earlier operations on it (R580), writes control word and count to s[RD], of another chip's it holds the sequencer until the answer. -/
def Obligations.SopsComplete : Prop :=
  ∀ (u : CoreId) (dt : Nat) (s : State),
    let w := s.iw u
    let tag := s.nextTag % 32768
    (∀ c op, (c, op) ∈ ([(.sopSignal u dt, 0), (.sopReset u dt, 3), (.sopArm u dt, 4)] : List (Instr × Nat)) →
      s.sopIssue u op = true → s.sopBad u w = 0 →
      Does c s (fun t => t.net = s.net ++ [sopMsg s u .sop 0 op (fImm w) (b2n (sRemote w))]
        ∧ (t.core u).posted = (s.core u).posted ++ [⟨tag, s.pc u, (s.core u).ordIds (sOrd w), op, s.sChip w, s.sopTarget u w, fImm w, tag⟩]
        ∧ Advanced s t u ∧ CoresBut s t u ∧ t.mem = s.mem))
    ∧ (s.sopIssue u 1 = true → s.sopBad u w = 0 → (s.core u).waits.length < 64 →
      Does (.sopWait u dt) s (fun t => t.net = s.net ++ [sopMsg s u .waiter tag 0 (fImm w % 2 ^ 48) (b2n (sRemote w))]
        ∧ (t.core u).waits = (s.core u).waits ++ [⟨tag, false, s.sChip w, s.sopTarget u w, fImm w % 2 ^ 48, s.pc u, 0, 0⟩]
        ∧ (t.core u).hold = .wait tag ∧ t.pc u = s.pc u ∧ CoresBut s t u ∧ t.mem = s.mem))
    ∧ (s.sopIssue u 2 = true → s.sopBad u w = 0 → sRemote w = false → s.slcBehind u s.chip (s.sNum u w) = false → s.slcDown (s.sNum u w) = none →
      WritesRd (.sopTest u dt) s u dt (BitVec.ofNat 64 (s.slcCtl (s.sNum u w) * 2 ^ 48 + s.slcCount (s.sNum u w))))
    ∧ (s.sopIssue u 2 = true → s.sopBad u w = 0 → sRemote w = true →
      Does (.sopTest u dt) s (fun t => t.net = s.net ++ [sopMsg s u .sop 0 2 0 1] ∧ (t.core u).hold = .test tag ∧ t.pc u = s.pc u
        ∧ CoresBut s t u ∧ t.mem = s.mem))
    ∧ (s.sopIssue u 5 = true → s.sopBad u w = 0 → (s.core u).waits.length < 64 →
      (∀ q, q < 4 → (sGq w).testBit q = true → ((s.core u).queue q).length < 16) →
      Does (.sopGate u dt) s (fun t => t.net = s.net ++ [sopMsg s u .waiter tag 0 (fImm w % 2 ^ 48) (b2n (sRemote w))]
        ∧ (t.core u).waits = (s.core u).waits ++ [⟨tag, true, s.sChip w, s.sopTarget u w, fImm w % 2 ^ 48, s.pc u, 0, 0⟩]
        ∧ (∀ q, q < 4 → if (sGq w).testBit q then ∃ d, (t.core u).queue q = (s.core u).queue q ++ [d] ∧ d.kind = .gate tag
            else (t.core u).queue q = (s.core u).queue q)
        ∧ Advanced s t u ∧ CoresBut s t u ∧ t.mem = s.mem))

/-- R566 to R568 and Table 12-2: an operation that reaches its bank takes effect and is acknowledged. Outside BARRIER mode a SIGNAL adds, stopping
at 2^48 − 1 with OVF, a RESET sets the count, an ARM sets the control word's low byte, a TEST answers; no waiter is released where none
waits for the sluice. -/
def Obligations.SluiceOperationsTakeEffect : Prop :=
  ∀ (k : Nat) (s : State) (m : Msg),
    s.slcArrival .sop k = some m → (m.remote = true → s.remoteOk m = true) → s.slcDown m.addr = none → m.addr < 16384 →
    (∀ w ∈ s.waiters, w.num ≠ m.addr) →
    let i := m.addr
    let v := s.slcCount i
    let ctl := s.slcCtl i
    (m.code = 0 → cMode ctl ≠ 2 →
      Does (.sopMessage k) s (fun t => t.slcCount i = min (v + m.arg % 2 ^ 48) (2 ^ 48 - 1)
        ∧ (2 ^ 48 ≤ v + m.arg % 2 ^ 48 → (t.slcCtl i).testBit 9 = true ∧ t.rd .slcOvf = 1)
        ∧ (∃ a : Msg, t.net = s.net.eraseIdx k ++ [a] ∧ a.op = .slcAck ∧ a.dst = m.src ∧ a.dstChip = m.srcChip ∧ a.tag = m.tag ∧ a.code = 0)
        ∧ t.cores = s.cores ∧ t.mem = s.mem ∧ t.waiters = s.waiters))
    ∧ (m.code = 3 → cMode ctl ≠ 2 →
      Does (.sopMessage k) s (fun t => t.slcCount i = m.arg % 2 ^ 48 ∧ (t.slcCtl i).testBit 8 = false ∧ (t.slcCtl i).testBit 9 = false
        ∧ (∃ a : Msg, t.net = s.net.eraseIdx k ++ [a] ∧ a.op = .slcAck ∧ a.tag = m.tag ∧ a.code = 0)
        ∧ t.cores = s.cores ∧ t.mem = s.mem ∧ t.waiters = s.waiters))
    ∧ (m.code = 4 → cMode m.arg ≠ 2 → cGlobal m.arg = false →
      Does (.sopMessage k) s (fun t => t.slcCount i = v ∧ t.slcCtl i % 256 = m.arg % 256
        ∧ (∃ a : Msg, t.net = s.net.eraseIdx k ++ [a] ∧ a.op = .slcAck ∧ a.tag = m.tag ∧ a.code = 0)
        ∧ t.cores = s.cores ∧ t.mem = s.mem ∧ t.waiters = s.waiters))
    ∧ (m.code = 2 →
      Does (.sopMessage k) s (fun t => ∃ a : Msg, t.net = s.net.eraseIdx k ++ [a] ∧ a.op = .slcAck ∧ a.tag = m.tag ∧ a.code = 0
        ∧ a.arg = ctl * 2 ^ 48 + v ∧ t.regs = s.regs ∧ t.cores = s.cores ∧ t.mem = s.mem ∧ t.waiters = s.waiters))

/-- R574 to R576, R578, R586 and R587: a waiter record whose condition holds is answered by a wake at once, in SEMAPHORE mode taking its v from the
count (R568), and is kept otherwise; the wake of a WAIT lets its core go on and frees the entry, that of a halted core only once the core goes on (R424); the acknowledgement of a posted
operation ends it with its status; a full bank's refusal makes the entry poll, and a poll whose condition holds goes on, in SEMAPHORE mode acquiring
(R575); a child's arrival acts as SIGNAL(+1); a release advances PHASE, takes EXPECT from ARRIVED and clears SENT. -/
def Obligations.WaitersAndTreeComplete : Prop :=
  ∀ (s : State),
    (∀ k m, s.slcArrival .waiter k = some m → (m.remote = true → s.remoteOk m = true) → s.slcDown m.addr = none → m.addr < 16384 →
      (∀ x ∈ s.waiters, x.num ≠ m.addr) → (s.waiters.filter (fun x => !x.taken && decide (x.num / 4096 = m.addr / 4096))).length < 4096 → m.len ≠ 2 →
      let i := m.addr
      (s.slcCount i < m.arg →
        Does (.waiterRecord k) s (fun t => t.waiters = s.waiters ++ [⟨i, m.srcChip, m.src, m.sub, m.arg, m.part, false⟩]
          ∧ t.net = s.net.eraseIdx k ∧ t.slcCount i = s.slcCount i ∧ t.cores = s.cores))
      ∧ (m.arg ≤ s.slcCount i → s.slcCount i < 2 ^ 48 →
        Does (.waiterRecord k) s (fun t => t.slcCount i = (if cMode (s.slcCtl i) = 1 then s.slcCount i - m.arg else s.slcCount i)
          ∧ ∃ a : Msg, t.net = s.net.eraseIdx k ++ [a] ∧ a.op = .wake ∧ a.dstChip = m.srcChip ∧ a.dst = m.src ∧ a.dsub = m.sub ∧ a.code = 0)))
    ∧ (∀ k m w, s.arrival .wake k = some m → m.dst ≤ 128 → m.code = 0 →
      (s.core m.dst).waits.find? (fun x => decide (x.wid = m.dsub)) = some w → w.gate = false → (s.core m.dst).hold = .wait m.dsub →
      (s.reg .dbgHalted m.dst 0 = 1 → Does (.wake k) s (fun t => (t.core m.dst).hold = .wait m.dsub ∧ t.pc m.dst = s.pc m.dst ∧ CoresBut s t m.dst
        ∧ (t.core m.dst).waits = (s.core m.dst).waits.map (fun x => if x.wid = m.dsub then { x with state := 2, code := 0 } else x)))
      ∧ (s.reg .dbgHalted m.dst 0 ≠ 1 → (s.core m.dst).capture = none → Does (.wake k) s (fun t => (t.core m.dst).hold = .none ∧ Advanced s t m.dst ∧ t.net = s.net.eraseIdx k
        ∧ (t.core m.dst).waits = (s.core m.dst).waits.filter (fun x => decide (x.wid ≠ m.dsub)) ∧ CoresBut s t m.dst)))
    ∧ (∀ k m w, s.arrival .wake k = some m → m.dst ≤ 128 → m.code = 0 →
      (s.core m.dst).waits.find? (fun x => decide (x.wid = m.dsub)) = some w → w.gate = true → (s.core m.dst).qFront = [] →
      Does (.wake k) s (fun t => (∀ q, q < 4 → (t.core m.dst).queue q = ((s.core m.dst).queue q).filter (fun d => !(decide (d.kind = .gate m.dsub))))
        ∧ t.net = s.net.eraseIdx k ∧ t.pc m.dst = s.pc m.dst ∧ CoresBut s t m.dst))
    ∧ (∀ k m, s.arrival .slcAck k = some m → m.dst ≤ 128 → m.code = 255 →
      Does (.sluiceAck k) s (fun t => t.rd .slcPoll = 1 ∧ CoresBut s t m.dst
        ∧ (t.core m.dst).waits = (s.core m.dst).waits.map (fun w => if w.wid = m.dsub then { w with state := 1 } else w)))
    ∧ (∀ k m p, s.arrival .slcAck k = some m → m.dst ≤ 128 → m.code < 255 → (s.core m.dst).hold ≠ .test m.tag → GoesOn s m.dst →
      (s.core m.dst).stopping = false → (s.core m.dst).posted.find? (fun x => decide (x.tag = m.tag)) = some p →
      Does (.sluiceAck k) s (fun t => (t.core m.dst).posted = (s.core m.dst).posted.filter (fun x => decide (x.tag ≠ m.tag))
        ∧ (m.code ≠ 0 → HoldsStatus s t m.dst m.code p.pc) ∧ t.pc m.dst = s.pc m.dst ∧ t.net = s.net.eraseIdx k ∧ CoresBut s t m.dst))
    ∧ (∀ (u : CoreId) id w, (s.core u).waits.find? (fun x => decide (x.wid = id) && decide (x.state = 1)) = some w →
      (s.core u).waits.find? (fun x => decide (x.wid = id)) = some w → w.chip = s.chip → w.gate = false → (s.core u).hold = .wait id →
      s.reg .dbgHalted u 0 ≠ 1 → (s.core u).capture = none →
      w.val ≤ s.slcCount w.num → s.slcCount w.num < 2 ^ 48 → w.num < 16384 →
      Does (.sluicePoll u id) s (fun t => (t.core u).hold = .none ∧ Advanced s t u ∧ t.net = s.net ∧ CoresBut s t u
        ∧ t.slcCount w.num = (if cMode (s.slcCtl w.num) = 1 then s.slcCount w.num - w.val else s.slcCount w.num)))
    ∧ (∀ k m, s.arrival .treeArrive k = some m → s.slcDown m.addr = none →
      exec (.treeArrive k) s = .next ((s.take k).slcApply m.addr Sop.signal 1).1.settle)
    ∧ (∀ k m, s.arrival .treeRelease k = some m → s.slcDown m.addr = none → m.addr < 16384 → (∀ x ∈ s.waiters, x.num ≠ m.addr) →
      let v := s.slcCount m.addr
      let ctl := s.slcCtl m.addr
      cMode ctl = 2 → cGlobal ctl = true → bArrived v - bExpect v < bExpect v →
      (∀ c ∈ treeChildren s.chip (cScope ctl), s.linkUp c.2 = true ∧ s.chipUp c.1 = true) →
      Does (.treeRelease k) s (fun t => bPhase (t.slcCount m.addr) = (bPhase v + 1) % 2 ^ 32 ∧ bExpect (t.slcCount m.addr) = bExpect v
        ∧ bArrived (t.slcCount m.addr) = bArrived v - bExpect v ∧ (t.slcCtl m.addr).testBit 8 = false ∧ t.cores = s.cores
        ∧ ∃ l : List Msg, t.net = s.net.eraseIdx k ++ l ∧ l.map (fun a => a.dstChip) = (treeChildren s.chip (cScope ctl)).map (fun c => c.1)
            ∧ ∀ a ∈ l, a.op = .treeRelease ∧ a.addr = m.addr))

/-- R570: a BARRIER that is not GLOBAL releases when a SIGNAL brings ARRIVED to EXPECT: PHASE advances and ARRIVED starts again; below
EXPECT only ARRIVED grows. -/
def Obligations.BarrierReleases : Prop :=
  ∀ (s : State) (i n : Nat), i < 16384 →
    let v := s.slcCount i
    let a := bArrived v + n
    cMode (s.slcCtl i) = 2 → cGlobal (s.slcCtl i) = false → v < 2 ^ 48 → a < 256 → 0 < bExpect v → (∀ x ∈ s.waiters, x.num ≠ i) →
    let t := (s.slcApply i Sop.signal n).1
    (a < bExpect v → t.slcCount i = v + n)
    ∧ (bExpect v ≤ a → a < 2 * bExpect v →
        bPhase (t.slcCount i) = (bPhase v + 1) % 2 ^ 32 ∧ bArrived (t.slcCount i) = a - bExpect v ∧ bExpect (t.slcCount i) = bExpect v)

/-- The item that the QPUSH at the program counter of core `u` sends: its words `data` as the scratchpad holds them, marked, to its target queue. -/
def Sys2Proof.Claims.isItem (s : State) (u chip core q : Nat) (data : Bytes) (a : Msg) : Prop :=
  let w := s.iw u
  a.op = .item ∧ a.srcChip = s.chip ∧ a.src = u ∧ a.sub = hIndex (s.qHandle u w) ∧ a.dstChip = chip ∧ a.dst = core ∧ a.dsub = q
    ∧ a.flight = s.reg .qsFlight u (hIndex (s.qHandle u w)) ∧ a.data = markItem data

/-- R392, R395, R416, R434 to R443 and R454: a QPUSH whose credits cover its item charges them and sends it, a two-cell item in two steps with the
cells read in order, its rows in the scoreboard meanwhile; under TRY = 1 it writes 1, or 0 where the credits are short; under TRY = 0 it then
waits, and QPUSH_RETRY has it accepted once they cover the item. `ecc` lists what the reads met. QSTAT and QFLUSH complete (R398, R449, R472). -/
def Obligations.QueuePushCompletes : Prop :=
  ∀ (u : CoreId) (dt : Nat) (ecc : List EccErr) (s : State),
    let w := s.iw u
    let n := hIndex (s.qHandle u w)
    let off := s.qOff u w
    let len := 8 * qWords w
    let ready := (s.core u).sb.length < 64 ∧ (s.core u).conflict [rowsOf off len] [] = false ∧ s.pushBad u w = 0
    let first := s.eccErrs u (eccAt off (min len 64) ecc)
    let whole := off + len ≤ 0xC0000 ∧ first.spdStatus u off (min len 64) = 0
    let sends (t : State) (chip core q : Nat) (data : Bytes) : Prop := (∃ a, t.net = s.net ++ [a] ∧ isItem s u chip core q data a)
      ∧ (t.core u).hold = .none ∧ Advanced s t u ∧ CoresBut s t u ∧ t.mem = s.mem
    (s.canIssue u 0x90 = true → (s.core u).hold = .none → ready →
      (∀ m chip core q pos, s.pushTarget u n (cellsOf (qWords w)) = some (m, chip, core, q, pos) → whole → s.reg .qsCredits u n < 8192 →
        (qWords w ≤ 8 → Does (.qpush u ⟨dt, ecc⟩) s (fun t => sends t chip core q (s.spdReads u off len)
            ∧ (s.reg .qsMode u n = 0 → t.reg .qsCredits u n = s.reg .qsCredits u n - cellsOf (qWords w))
            ∧ (qTry w = true → fRd w ≠ 0 → t.sreg u (fRd w) = 1)))
        ∧ (8 < qWords w → Does (.qpush u ⟨dt, ecc⟩) s (fun t => (t.core u).hold = .pushMid (s.core u).nextId m chip core q (s.spdReads u off 64) 0
            ∧ (t.core u).sb = (s.core u).sb ++ [⟨(s.core u).nextId, [rowsOf off len], [], false⟩] ∧ t.net = s.net
            ∧ (s.reg .qsMode u n = 0 → t.reg .qsCredits u n = s.reg .qsCredits u n - cellsOf (qWords w))
            ∧ t.pc u = s.pc u ∧ CoresBut s t u)))
      ∧ (s.pushTarget u n (cellsOf (qWords w)) = none →
        (qTry w = true → Does (.qpush u ⟨dt, ecc⟩) s (fun t => (fRd w ≠ 0 → t.sreg u (fRd w) = 0) ∧ t.net = s.net ∧ Advanced s t u ∧ CoresBut s t u))
        ∧ (qTry w = false → Does (.qpush u ⟨dt, ecc⟩) s (fun t => (t.core u).hold = .push ∧ t.net = s.net ∧ t.pc u = s.pc u ∧ CoresBut s t u))))
    ∧ (∀ id m chip core q cell, s.runs u = true → s.canFinish u = true → (s.core u).stopping = false → (s.core u).hold = .pushMid id m chip core q cell 0 →
      8 < qWords w → off + len ≤ 0xC0000 →
      let second := (s.asIssued u id).eccErrs u (eccAt (off + 64) (len - 64) ecc)
      second.spdStatus u (off + 64) (len - 64) = 0 →
      Does (.qpush u ⟨dt, ecc⟩) s (fun t => sends t chip core q (cell ++ second.spdReads u (off + 64) (len - 64))))
    ∧ (∀ m chip core q pos, s.canIssue u 0x90 = true → (s.core u).hold = .push → qWords w ≤ 8 → whole →
      s.pushTarget u n (cellsOf (qWords w)) = some (m, chip, core, q, pos) →
      Does (.qpushRetry ⟨u, ecc⟩) s (fun t => sends t chip core q (s.spdReads u off len)))
    ∧ (s.canIssue u 0x93 = true → s.queueBad u (s.qHandle u w) = false →
      let d := ((s.core u).itemsOf n).length
      WritesRd (.qstat u dt) s u dt (BitVec.ofNat 64 (d + (s.reg .qdCells u n - (s.core u).usedCells n) * 2 ^ 13 + s.reg .qdGen u n * 2 ^ 26
        + b2n (d = 0) * 2 ^ 33 + s.reg .qdLendEn u n * 2 ^ 34 + s.reg .qdDropped u n * 2 ^ 48)))
    ∧ (s.canIssue u 0x92 = true → s.queueBad u (s.qHandle u w) = false →
      Does (.qflush u dt) s (fun t => (t.core u).itemsOf n = [] ∧ t.reg .qdHead u n = s.reg .qdTail u n % 2 ^ Fld.qdHead.spec.w
        ∧ t.reg .qdDepth u n = 0 ∧ t.reg .qdGen u n = (s.reg .qdGen u n + 1) % 128 ∧ Advanced s t u ∧ CoresBut s t u
        ∧ ∃ l : List Msg, t.net = s.net ++ l ∧ l.length = ((s.core u).pushers.filter (fun x => decide (x.1 = n))).length
            ∧ ∀ a ∈ l, a.op = .flush ∧ a.arg = (s.reg .qdGen u n + 1) % 128))

/-- R393 to R395, R448, R460 and R462: a QPOP of an item that NW covers writes its words from OFF onward and its word count to s[RD], takes it out
and returns its cells as credits, also when it had to wait; one that is longer stays, with Q_SIZE; with none TRY = 1 writes 0 and
TRY = 0 waits; an empty queue takes by lending, also from another queue of its core, marking the item LENT, once a lend core in C1 is awake
(R50). `ecc` lists what the reads met. -/
def Obligations.QueuePopCompletes : Prop :=
  ∀ (u : CoreId) (dt : Nat) (ecc : List EccErr) (s : State),
    let w := s.iw u
    let q := hIndex (s.qHandle u w)
    let off := s.qOff u w
    let ready := (s.core u).sb.length < 64 ∧ (s.core u).conflict [] [rowsOf off (8 * qWords w)] = false ∧ off < 0xC0000 ∧ off % 8 = 0
      ∧ s.queueBad u (s.qHandle u w) = false
    (∀ c it l, ((c = .qpop u ⟨dt, ecc⟩ ∧ s.canIssue u 0x91 = true ∧ (s.core u).hold = .none ∧ ready)
        ∨ (c = .qpopLendRetest ⟨u, ecc⟩ ∧ s.canIssue u 0x91 = true ∧ (s.core u).hold = .pop)) → (s.core u).itemsOf q = it :: l →
      let a0 := s.cellAt u q (s.reg .qdHead u q)
      let a1 := s.cellAt u q (s.reg .qdHead u q + 1)
      let n0 := 8 * min it.words 8
      let n1 := 8 * it.words - n0
      let met := s.eccErrs u (eccAt a0 n0 ecc ++ eccAt a1 n1 ecc)
      (it.words ≤ qWords w → off % 8 = 0 → off + 8 * it.words ≤ 0xC0000 → it.words < 2 ^ 64 →
        met.spdStatus u a0 n0 = 0 → met.spdStatus u a1 n1 = 0 → s.spdAnyOff u off (8 * it.words) = false →
        Does c s (fun t => t.spdReads u off (8 * it.words) = s.spdReads u a0 n0 ++ s.spdReads u a1 n1
          ∧ (fRd w ≠ 0 → t.sreg u (fRd w) = it.words) ∧ (t.core u).itemsOf q = l ∧ (t.core u).hold = .none ∧ Advanced s t u ∧ CoresBut s t u
          ∧ (t.core u).sb = (s.core u).sb ++ [⟨(s.core u).nextId, [], [rowsOf off (8 * it.words)], false⟩]
          ∧ ∃ a : Msg, t.net = s.net ++ [a] ∧ a.op = .credit ∧ a.dstChip = it.chip ∧ a.dst = it.core ∧ a.dsub = it.entry ∧ a.arg = it.cells))
      ∧ (qWords w < it.words → GoesOn s u →
        Does c s (fun t => (t.core u).itemsOf q = it :: l ∧ HoldsStatus s t u St.qSize (s.pc u) ∧ t.net = s.net ∧ Advanced s t u
          ∧ (t.core u).spd = (s.core u).spd ∧ CoresBut s t u)))
    ∧ (s.canIssue u 0x91 = true → (s.core u).hold = .none → ready → (s.core u).itemsOf q = [] →
      (s.lendAsleep u q = true → exec (.qpop u ⟨dt, ecc⟩) s = .next s)
      ∧ (s.lendAsleep u q = false → s.lendFrom u q = none →
        (qTry w = true → Does (.qpop u ⟨dt, ecc⟩) s (fun t => (fRd w ≠ 0 → t.sreg u (fRd w) = 0) ∧ Advanced s t u ∧ t.net = s.net ∧ CoresBut s t u))
        ∧ (qTry w = false → Does (.qpop u ⟨dt, ecc⟩) s (fun t => (t.core u).hold = .pop ∧ t.pc u = s.pc u ∧ t.net = s.net ∧ CoresBut s t u))))
    ∧ (∀ v r it l, s.canIssue u 0x91 = true → (s.core u).hold = .none → ready → (s.core u).itemsOf q = [] → s.lendFrom u q = some (v, r) →
      v < 129 → r < 16 → (s.core v).itemsOf r = it :: l → it.words ≤ qWords w → 0 < it.words → off + 8 * it.words ≤ 0xC0000 →
      let a0 := s.cellAt v r (s.reg .qdHead v r)
      let a1 := s.cellAt v r (s.reg .qdHead v r + 1)
      let n0 := 8 * min it.words 8
      let met := s.eccErrs v (eccAt a0 n0 ecc ++ eccAt a1 (8 * it.words - n0) ecc)
      met.spdStatus v a0 n0 = 0 → met.spdStatus v a1 (8 * it.words - n0) = 0 → s.spdAnyOff u off (8 * it.words) = false →
      Does (.qpop u ⟨dt, ecc⟩) s (fun t => (t.core v).itemsOf r = l ∧ (fRd w ≠ 0 → t.sreg u (fRd w) = it.words % 2 ^ 64) ∧ (t.spdNum u off 2).testBit 14 = true
        ∧ Advanced s t u))

/-- A queue counts an item that it drops, and notes its producer for the next flush (R440, R449); cores and rings are otherwise as before. -/
def Sys2Proof.Claims.Dropped (s t : State) (m : Msg) : Prop :=
  t.reg .qdDropped m.dst m.dsub = min (s.reg .qdDropped m.dst m.dsub + 1) (2 ^ Fld.qdDropped.spec.w - 1)
    ∧ (∃ x ∈ (t.core m.dst).pushers, x.1 = m.dsub) ∧ { t.core m.dst with pushers := (s.core m.dst).pushers } = s.core m.dst
    ∧ CoresBut s t m.dst ∧ t.mem = s.mem

/-- The credits of an item go back to the send entry that pushed it (R437). -/
def Sys2Proof.Claims.CreditsBack (s t : State) (k : Nat) (m : Msg) : Prop :=
  ∃ b : Msg, t.net = s.net.eraseIdx k ++ [b] ∧ b.op = .credit ∧ b.dstChip = m.srcChip ∧ b.dst = m.src ∧ b.dsub = m.sub
    ∧ b.arg = cellsOf (m.data.length / 8)

/-- R438, R440, R444, R446 and R449 to R452: an ITEM for an enabled queue of the same flight, with room and no older GEN, is written at the tail, one
of two cells in two, and published; one for a disabled queue, or of another flight, is dropped and its credits go back; one of an older GEN is
dropped; each is noted for the next flush. A CREDIT adds to its send entry, of a core in either mode or of the host. A FLUSH restores the quota and teaches
the GEN, and tears an item that is part-way through its read. -/
def Obligations.QueueMessagesTakeEffect : Prop :=
  ∀ (k : Nat) (s : State) (m : Msg),
    (s.arrival .item k = some m → s.answers m.dst = true → (m.srcChip = s.chip ∨ ∀ p ∈ s.partOf m.dst, s.reg .partState 0 p ≠ 2) → m.dsub < 16 →
      let c := s.core m.dst
      let words := m.data.length / 8
      let n0 := 8 * min words 8
      let a0 := s.cellAt m.dst m.dsub (s.reg .qdTail m.dst m.dsub)
      let a1 := s.cellAt m.dst m.dsub (s.reg .qdTail m.dst m.dsub + 1)
      (s.reg .qdEn m.dst m.dsub ≠ 0 → m.flight = s.reg .qdFlight m.dst m.dsub → genOlder m.arg (s.reg .qdGen m.dst m.dsub) = false →
        c.usedCells m.dsub + cellsOf words ≤ s.reg .qdCells m.dst m.dsub → (m.dsub ∉ c.resync ∨ field m.data 0 1 = 0xB9) →
        m.data.length = 8 * words → 0 < words → words ≤ 16 → s.spdAnyOff m.dst a0 n0 = false → s.spdAnyOff m.dst a1 (8 * words - n0) = false →
        Does (.item k) s (fun t => t.spdReads m.dst a0 n0 = m.data.take 64 ∧ t.spdReads m.dst a1 (8 * words - n0) = m.data.drop 64
          ∧ (t.core m.dst).itemsOf m.dsub = c.itemsOf m.dsub ++ [⟨m.dsub, words, cellsOf words, decide (m.src = 184), m.srcChip, m.src, m.sub⟩]
          ∧ (∃ x ∈ (t.core m.dst).pushers, x.1 = m.dsub)
          ∧ t.reg .qdTail m.dst m.dsub = (s.reg .qdTail m.dst m.dsub + cellsOf words) % max 1 (s.reg .qdCells m.dst m.dsub) % 2 ^ Fld.qdTail.spec.w
          ∧ t.reg .qdDepth m.dst m.dsub = ((c.itemsOf m.dsub).length + 1) % 2 ^ Fld.qdDepth.spec.w
          ∧ t.net = s.net.eraseIdx k ∧ CoresBut s t m.dst ∧ t.mem = s.mem))
      ∧ (s.reg .qdEn m.dst m.dsub = 0 → Does (.item k) s (fun t => Dropped s t m ∧ CreditsBack s t k m))
      ∧ (s.reg .qdEn m.dst m.dsub ≠ 0 → m.flight ≠ s.reg .qdFlight m.dst m.dsub → 24 ≤ m.link → m.dst < 128 →
        Does (.item k) s (fun t => Dropped s t m ∧ CreditsBack s t k m ∧ (t.rd .kprGstatus).testBit Gs.streamDrop = true))
      ∧ (s.reg .qdEn m.dst m.dsub ≠ 0 → m.flight = s.reg .qdFlight m.dst m.dsub → genOlder m.arg (s.reg .qdGen m.dst m.dsub) = true →
        Does (.item k) s (fun t => Dropped s t m ∧ t.net = s.net.eraseIdx k)))
    ∧ (s.arrival .credit k = some m → m.dst < 129 → m.dsub < 16 →
      (s.reg .qsMode m.dst m.dsub = 0 →
        Does (.credit k) s (fun t => t.reg .qsCredits m.dst m.dsub = (s.reg .qsCredits m.dst m.dsub + m.arg) % 2 ^ Fld.qsCredits.spec.w
          ∧ t.net = s.net.eraseIdx k ∧ t.cores = s.cores ∧ RegsBut s t (fun f i j => f = .qsCredits ∧ i = m.dst ∧ j = m.dsub)))
      ∧ (∀ j, s.reg .qsMode m.dst m.dsub ≠ 0 → s.memberFor m.dst m.dsub m.srcChip m.src m.sub = some j →
        Does (.credit k) s (fun t => tabGet 0 (8 * m.dsub + j) (t.core m.dst).dealCr = tabGet 0 (8 * m.dsub + j) (s.core m.dst).dealCr + m.arg
          ∧ t.net = s.net.eraseIdx k ∧ t.regs = s.regs ∧ CoresBut s t m.dst)))
    ∧ (s.arrival .credit k = some m → m.dst = 184 → m.dsub / 16 < 17 →
      let f := m.dsub / 16
      let e := m.dsub % 16
      Does (.credit k) s (fun t => t.reg .hqsCredits f e = (s.reg .hqsCredits f e + m.arg) % 2 ^ Fld.hqsCredits.spec.w
        ∧ t.net = s.net.eraseIdx k ∧ t.cores = s.cores ∧ RegsBut s t (fun g i j => g = .hqsCredits ∧ i = f ∧ j = e)))
    ∧ (s.arrival .flush k = some m → m.dst < 129 → m.dsub < 16 → s.reg .qsMode m.dst m.dsub = 0 →
      let n := m.dsub
      ((∀ x a b c d e f, (s.core m.dst).hold ≠ .pushMid x a b c d e f) →
        Does (.flush k) s (fun t => t.reg .qsCredits m.dst n = s.reg .qsQuota m.dst n % 2 ^ Fld.qsCredits.spec.w
          ∧ tabGet 0 (8 * n) (t.core m.dst).sendGen = m.arg ∧ t.net = s.net.eraseIdx k ∧ CoresBut s t m.dst))
      ∧ (∀ id x cell st, (s.core m.dst).hold = .pushMid id x m.srcChip m.src m.sub cell st → hIndex (s.qHandle m.dst (s.iw m.dst)) = n →
        GoesOn s m.dst → (s.core m.dst).stopping = false →
        Does (.flush k) s (fun t => (t.core m.dst).hold = .none ∧ HoldsStatus s t m.dst St.qTorn (s.pc m.dst) ∧ Advanced s t m.dst
          ∧ t.reg .qsTorn m.dst n = min (s.reg .qsTorn m.dst n + 1) (2 ^ Fld.qsTorn.spec.w - 1)
          ∧ t.reg .qsCredits m.dst n = s.reg .qsQuota m.dst n % 2 ^ Fld.qsCredits.spec.w ∧ t.net = s.net.eraseIdx k ∧ CoresBut s t m.dst)))


/-- Two answers of the same kind to the same request (R489, R505). -/
def Sys2Proof.Claims.answers (r a : Msg) (op : MsgOp) (code : Nat) (data : Bytes) (poison : Bool) (events : Nat) : Prop :=
  a.op = op ∧ a.dstChip = r.srcChip ∧ a.dst = r.src ∧ a.dsub = r.sub ∧ a.tag = r.tag ∧ a.seq = r.seq ∧ a.code = code ∧ a.data = data
    ∧ a.poison = poison ∧ a.events = events

/-- R504, R517, R727, R728 and R734: a memory request of any of the five kinds that its partition's translator maps is queued at the controller of its
device address, behind those that came before, or held where a mover holds its page; one that it does not map is refused with DMA_XLATE, and one for a partition that is powering
down with PART_DOWN, and neither touches memory. -/
def Obligations.MemoryRequestsArrive : Prop :=
  ∀ (k time : Nat) (s : State) (m : Msg) (c : Instr) (op : MsgOp),
    (c, op) ∈ ([(.read k time, .read), (.write k time, .write), (.atomic k time, .atomic), (.ledgerAdd k time, .ledgerAdd),
      (.ledgerSettle k time, .ledgerSettle)] : List (Instr × MsgOp)) →
    s.arrival op k = some m → ∀ p, s.reqPart m = some p →
    ((p = 16 ∨ (p < 16 ∧ s.reg .partState 0 p ≠ 2)) →
      (∀ da v, s.xlate p m.addr m.op.writes = some da → s.heldBy da = some v →
        Does c s (fun t => (t.mover v).held = (s.mover v).held ++ [m] ∧ t.net = s.net.eraseIdx k ∧ t.ms.queues = s.ms.queues ∧ t.mem = s.mem
          ∧ t.regs = s.regs ∧ t.cores = s.cores))
      ∧ (∀ da, s.xlate p m.addr m.op.writes = some da → s.heldBy da = none →
        Does c s (fun t => t.ctlQueue (ctlOf da) = s.ctlQueue (ctlOf da) ++ [⟨{ m with addr := da, part := p }, time, s.ms.nextOrd⟩]
          ∧ (∀ j, j ≠ ctlOf da → t.ctlQueue j = s.ctlQueue j) ∧ t.net = s.net.eraseIdx k ∧ t.mem = s.mem ∧ t.regs = s.regs ∧ t.cores = s.cores))
      ∧ (s.xlate p m.addr m.op.writes = none → m.srcChip = s.chip →
        Does c s (fun t => (∃ a, t.net = s.net.eraseIdx k ++ [a] ∧ answers m a .complete St.dmaXlate [] false 0) ∧ t.mem = s.mem ∧ t.ms = s.ms
          ∧ (p < 16 → t.reg .partXlate 0 p = 1))))
    ∧ (p < 16 → s.reg .partState 0 p = 2 → m.srcChip = s.chip →
        Does c s (fun t => (∃ a, t.net = s.net.eraseIdx k ++ [a] ∧ answers m a .complete St.partDown [] false 0) ∧ t.mem = s.mem ∧ t.ms = s.ms))

/-- R489, R490, R502, R505, R508 and R511: a controller that serves a request outside the control region performs it whole: a write stores exactly its
bytes, a read answers with them, an atomic or ledger operation replaces its elements in one step and answers with its events, a
LEDGER_SETTLE with the settled values. -/
def Obligations.ControllerServes : Prop :=
  ∀ (n : McId) (time : Nat) (hits : List Nat) (s : State) (r : CtlReq),
    s.pickReq time hits (s.ctlQueue n) = some r → inControl r.msg.addr = false →
    let m := r.msg
    (m.op = .write →
      Does (.controllerServe n time hits .clean) s (fun t => t.mem.reads m.addr m.data.length = m.data
        ∧ (∀ b, b < m.addr ∨ m.addr + m.data.length ≤ b → t.mem.byte b = s.mem.byte b)
        ∧ (∃ a, t.net = s.net ++ [a] ∧ answers m a .complete 0 [] false 0)
        ∧ t.ctlQueue n = (s.ctlQueue n).filter (fun x => decide (x.ord ≠ r.ord)) ∧ t.regs = s.regs ∧ t.cores = s.cores))
    ∧ (m.op = .read → s.mem.anyPoison m.addr m.len = false →
      Does (.controllerServe n time hits .clean) s (fun t => (∃ a, t.net = s.net ++ [a] ∧ answers m a .readData 0 (s.memReads m.addr m.len) false 0)
        ∧ t.mem = s.mem ∧ t.ctlQueue n = (s.ctlQueue n).filter (fun x => decide (x.ord ≠ r.ord)) ∧ t.regs = s.regs ∧ t.cores = s.cores))
    ∧ (m.op = .read → m.part ≤ 16 →
      Does (.controllerServe n time hits .uncorrectable) s (fun t => (∃ a, t.net = s.net ++ [a] ∧ a.op = .readData ∧ a.tag = m.tag ∧ a.seq = m.seq
          ∧ a.dst = m.src ∧ (0 < m.len → a.code = St.memUe ∧ a.poison = true))
        ∧ m.addr / 64 ∈ t.mem.poison ∧ t.mem.cells = s.mem.cells ∧ t.reg .mcUe n 0 = 1 ∧ t.cores = s.cores))
    ∧ ((m.op = .atomic ∨ m.op = .ledgerAdd) → s.mem.anyPoison m.addr m.len = false → m.poison = false →
      let x := atomBytes m.code (s.memReads m.addr m.len) m.data m.len
      Does (.controllerServe n time hits .clean) s (fun t => t.mem.reads m.addr x.1.length = x.1
        ∧ (∀ b, b < m.addr ∨ m.addr + x.1.length ≤ b → t.mem.byte b = s.mem.byte b)
        ∧ (∃ a, t.net = s.net ++ [a] ∧ answers m a .complete 0 [] false x.2.1) ∧ t.regs = s.regs ∧ t.cores = s.cores))
    ∧ (m.op = .ledgerSettle → s.mem.anyPoison m.addr m.len = false → m.poison = false →
      let x := atomBytes m.code (s.memReads m.addr m.len) m.data m.len
      Does (.controllerServe n time hits .clean) s (fun t => t.mem.reads m.addr x.1.length = x.1
        ∧ (∃ a, t.net = s.net ++ [a] ∧ answers m a .readData 0 x.2.2 false x.2.1) ∧ t.regs = s.regs ∧ t.cores = s.cores))

/-- R497, R498, R505 and Table 13-6: the answer of the last request of a transfer takes it off the list, counts its bytes, adds its events and records
its status where it fails; read data goes to the scratchpad bytes of its piece. A refusal of a posted operation or of an item gives it the
status of its reason, or its credits back. -/
def Obligations.AnswersReachTheirSource : Prop :=
  ∀ (k : Nat) (s : State) (m : Msg),
    (∀ x r q, s.arrival .readData k = some m → m.dst < 129 → m.srcChip = s.chip → (s.core m.dst).xferOf m.tag = some (x, r) → x.todo = [] → x.dir = 0 → x.eng < 2 →
      dAop x.desc = 0 → m.code = 0 → m.poison = false → m.data ≠ [] → r.pieces = [q] → s.spdAnyOff m.dst q.2.1 q.2.2.2 = false → q.2.2.1 = q.2.2.2 →
      Does (.readData k) s (fun t => t.spdReads m.dst q.2.1 q.2.2.1 = sliceBytes m.data q.1 q.2.2.1
        ∧ (∀ b, b < q.2.1 ∨ q.2.1 + q.2.2.1 ≤ b → t.spdByte m.dst b = s.spdByte m.dst b)
        ∧ (∃ y ∈ (t.core m.dst).xfers, y.eng = x.eng ∧ y.out = x.out.filter (fun o => decide (o.1 ≠ m.tag)) ∧ y.todo = [] ∧ y.fail = x.fail)
        ∧ t.reg .dmaBytes m.dst x.eng = (s.reg .dmaBytes m.dst x.eng + q.2.2.2) % 2 ^ Fld.dmaBytes.spec.w
        ∧ t.net = s.net.eraseIdx k ∧ CoresBut s t m.dst ∧ t.mem = s.mem))
    ∧ (∀ x r, s.arrival .complete k = some m → m.dst < 129 → (s.core m.dst).xferOf m.tag = some (x, r) → x.todo = [] → x.dir = 1 → x.eng < 2 →
      Does (.complete k) s (fun t => (t.core m.dst).spd = (s.core m.dst).spd
        ∧ (∃ y ∈ (t.core m.dst).xfers, y.eng = x.eng ∧ y.out = x.out.filter (fun o => decide (o.1 ≠ m.tag))
            ∧ (m.code = 0 → y.fail = x.fail) ∧ (m.code ≠ 0 → x.fail = 0 → y.fail = m.code ∧ y.failAt = r.n))
        ∧ t.reg .dmaNum m.dst x.eng = (s.reg .dmaNum m.dst x.eng ||| m.events) % 2 ^ Fld.dmaNum.spec.w
        ∧ t.net = s.net.eraseIdx k ∧ CoresBut s t m.dst ∧ t.mem = s.mem))
    ∧ (∀ x r, s.arrival .nack k = some m → m.dst < 129 → m.tag < 0x8000 → (s.core m.dst).xferOf m.tag = some (x, r) → x.todo = [] → x.dir = 1 → x.fail = 0 →
      Does (.nack k) s (fun t => (∃ y ∈ (t.core m.dst).xfers, y.eng = x.eng ∧ y.out = x.out.filter (fun o => decide (o.1 ≠ m.tag))
          ∧ y.fail = nackStatus true m.code) ∧ (t.core m.dst).spd = (s.core m.dst).spd ∧ t.net = s.net.eraseIdx k ∧ t.mem = s.mem))
    ∧ (∀ p, s.arrival .nack k = some m → m.dst < 129 → m.tag < 0x8000 → (s.core m.dst).xferOf m.tag = none → (s.core m.dst).hold ≠ .test m.tag →
      (s.core m.dst).posted.find? (fun x => decide (x.tag = m.tag)) = some p → GoesOn s m.dst → (s.core m.dst).stopping = false →
      Does (.nack k) s (fun t => (t.core m.dst).posted = (s.core m.dst).posted.filter (fun x => decide (x.tag ≠ m.tag))
        ∧ HoldsStatus s t m.dst (nackStatus false m.code) p.pc ∧ CoresBut s t m.dst))
    ∧ (s.arrival .nack k = some m → 0x8000 ≤ m.tag → 2 < m.code → s.reg .qsMode (bits m.tag 8 7) (bits m.tag 0 4) = 0 →
      Does (.nack k) s (fun t => t.reg .qsCredits (bits m.tag 8 7) (bits m.tag 0 4)
          = (s.reg .qsCredits (bits m.tag 8 7) (bits m.tag 0 4) + bits m.tag 7 1 + 1) % 2 ^ Fld.qsCredits.spec.w
        ∧ t.net = s.net.eraseIdx k ∧ t.cores = s.cores))

/-- Table 10-8 and R520 to R523: a GETS of a line that no cache owns is answered with DATA_S and its data, and makes the cache a sharer; of an owned one
it recalls the owner; a GETX of a line that no other cache shares is answered with DATA_X, or ACK_X to a cache that shares it, and makes the
cache its owner; with other sharers each of them is invalidated first. A cache asks through its MGMT port (R534), whose being over budget shows in BWR_STATUS.
`together` says that a GETX comes in one cycle with another; here no other waits (R522). -/
def Obligations.DirectoryRequestsServed : Prop :=
  ∀ (n : Fin 17) (line : Nat) (s : State), line < 2 ^ 24 →
    let c := s.cline n line
    let d := s.dirEnt line
    let below := (s.ms.cache.filter (fun x => decide (x.1 / 2 ^ 24 = n.val) && decide (x.2.st ≠ 0))).length < 512
    let portCount (t : State) : Prop := RegsBut s t (fun f _ _ => f = .bwrOver)
    let free := s.portOpen Cls.mgmt n = true ∧ d.waiting = [] ∧ d.held = []
    (c.st = 0 → c.pend = 0 → c.put = 0 → below → free → s.reissued .gets n line = false →
      (d.st ≤ 1 → (d.st = 1 ∨ (s.tracked (dirCtl line)).length < 2048) →
        Does (.gets n line) s (fun t => t.ms.coh = s.ms.coh ++ [⟨.dataS, n, line, s.lineData line⟩]
          ∧ t.dirEnt line = { d with st := 1, sharers := setAdd n d.sharers } ∧ t.cline n line = { c with pend := 1, retries := 0 }
          ∧ t.mem = s.mem ∧ portCount t ∧ t.cores = s.cores))
      ∧ (d.st = 2 → d.owner ≠ n →
        Does (.gets n line) s (fun t => t.ms.coh = s.ms.coh ++ [⟨.recall, d.owner, line, 0⟩]
          ∧ t.dirEnt line = { d with st := 3, waiting := [(n.val, false)], toAck := [d.owner] } ∧ t.cline n line = { c with pend := 1, retries := 0 }
          ∧ t.mem = s.mem ∧ portCount t ∧ t.cores = s.cores)))
    ∧ (∀ store together, c.st ≤ 1 → c.pend = 0 → c.put = 0 → below → free → s.reissued .getx n line = false → d.st ≤ 1 →
      (d.st = 1 ∨ (s.tracked (dirCtl line)).length < 2048) →
      ((∀ x ∈ d.sharers, x = n.val) →
        Does (.getx n line ⟨store, together⟩) s (fun t => t.ms.coh = s.ms.coh
            ++ [if d.sharers.contains n && decide (c.st = 1) then ⟨.ackX, n, line, 0⟩ else ⟨.dataX, n, line, s.lineData line⟩]
          ∧ t.dirEnt line = { d with st := 2, owner := n, sharers := [] } ∧ t.cline n line = { c with pend := 2, store := store, retries := 0 }
          ∧ t.mem = s.mem ∧ portCount t ∧ t.cores = s.cores))
      ∧ ((∃ x ∈ d.sharers, x ≠ n.val) →
        let others := d.sharers.filter (fun x => decide (x ≠ n.val))
        Does (.getx n line ⟨store, together⟩) s (fun t => t.ms.coh = s.ms.coh ++ others.map (fun x => ⟨.inv, x, line, 0⟩)
          ∧ t.dirEnt line = { d with st := 3, waiting := [(n.val, true)], toAck := others } ∧ t.mem = s.mem ∧ portCount t ∧ t.cores = s.cores)))

/-- R521, R523, R525, R526 and R531: PUTM writes its line back and is acknowledged, PUTE releases a clean one; DATA_S, DATA_X and ACK_X end a cache's
request, a waiting store being made at once; WB_ACK ends a writeback; RETRY is counted and its request reissued; INV and RECALL take the
copy away, a dirty one being written back. -/
def Obligations.CacheMessagesTakeEffect : Prop :=
  ∀ (n : Fin 17) (line : Nat) (s : State), line < 2 ^ 24 →
    let c := s.cline n line
    let d := s.dirEnt line
    let portCount (t : State) : Prop := RegsBut s t (fun f _ _ => f = .bwrOver)
    let free := s.portOpen Cls.mgmt n = true ∧ d.waiting = [] ∧ ∀ x ∈ s.ms.dir, x.2.held = []
    let left : DirEnt := { d with st := if d.sharers.isEmpty then 0 else 1, owner := 0, toAck := [], reuse := false }
    (c.st = 3 → d.st = 2 → d.owner = n → free →
      Does (.putm n line) s (fun t => t.mem.reads (ctrlBase + 64 * line) 64 = toBytes 64 c.data ∧ t.cline n line = { c with st := 0, data := 0, put := 1 }
        ∧ t.dirEnt line = left ∧ t.ms.coh = s.ms.coh ++ [⟨.wbAck, n, line, 0⟩] ∧ portCount t ∧ t.cores = s.cores
        ∧ ∀ b, b < ctrlBase + 64 * line ∨ ctrlBase + 64 * line + 64 ≤ b → t.mem.byte b = s.mem.byte b))
    ∧ (c.st = 2 → d.st = 2 → d.owner = n → free →
      Does (.pute n line) s (fun t => t.cline n line = { c with st := 0, data := 0 } ∧ t.dirEnt line = left
        ∧ t.ms.coh = s.ms.coh ∧ t.mem = s.mem ∧ portCount t ∧ t.cores = s.cores))
    ∧ (∀ m, s.cohFirst .dataS n line = some m →
      Does (.dataS n line) s (fun t => t.cline n line = { c with st := 1, data := m.data, pend := 0, retries := 0, reissue := false }
        ∧ t.ms.coh.length + 1 = s.ms.coh.length ∧ t.ms.dir = s.ms.dir ∧ t.mem = s.mem ∧ t.regs = s.regs ∧ t.cores = s.cores))
    ∧ (∀ m, s.cohFirst .dataX n line = some m →
      Does (.dataX n line) s (fun t => t.cline n line = (match c.store with
          | some v => { c with st := 3, data := v.toNat, pend := 0, store := none, retries := 0, reissue := false }
          | none => { c with st := 2, data := m.data, pend := 0, retries := 0, reissue := false })
        ∧ t.ms.coh.length + 1 = s.ms.coh.length ∧ t.ms.dir = s.ms.dir ∧ t.mem = s.mem ∧ t.regs = s.regs ∧ t.cores = s.cores))
    ∧ (∀ m, s.cohFirst .ackX n line = some m →
      Does (.ackX n line) s (fun t => t.cline n line = (match c.store with
          | some v => { c with st := 3, data := v.toNat, pend := 0, store := none, retries := 0, reissue := false }
          | none => { c with st := 2, pend := 0, retries := 0, reissue := false })
        ∧ t.ms.coh.length + 1 = s.ms.coh.length ∧ t.ms.dir = s.ms.dir ∧ t.mem = s.mem ∧ t.regs = s.regs ∧ t.cores = s.cores))
    ∧ (∀ m, s.cohFirst .wbAck n line = some m →
      Does (.wbAck n line) s (fun t => t.cline n line = { c with put := 0 } ∧ t.ms.coh.length + 1 = s.ms.coh.length ∧ t.ms.dir = s.ms.dir ∧ t.mem = s.mem))
    ∧ (∀ m, s.cohFirst .retry n line = some m →
      Does (.retry n line) s (fun t => t.cline n line = { c with retries := c.retries + 1, reissue := true } ∧ t.ms.coh.length + 1 = s.ms.coh.length
        ∧ t.ms.dir = s.ms.dir ∧ t.mem = s.mem))
    ∧ (c.reissue = true → c.pend ≠ 0 → s.portOpen Cls.mgmt n = true →
      Does (.reissue n line) s (fun t => t.cline n line = { c with reissue := false }
        ∧ t.ms.coh = s.ms.coh ++ [⟨if c.pend = 1 then .gets else .getx, n, line, 0⟩] ∧ t.ms.dir = s.ms.dir ∧ t.mem = s.mem))
    ∧ (∀ m, s.cohFirst .inv n line = some m →
      Does (.inv n line) s (fun t => (t.cline n line).st = 0 ∧ (t.cline n line).data = 0 ∧ t.mem = s.mem ∧ t.cores = s.cores))
    ∧ (∀ m, s.cohFirst .recall n line = some m →
      (c.st = 3 → Does (.recall n line) s (fun t => (t.cline n line).st = 0 ∧ t.mem.reads (ctrlBase + 64 * line) 64 = toBytes 64 c.data
        ∧ t.cores = s.cores))
      ∧ (c.st = 2 → Does (.recall n line) s (fun t => (t.cline n line).st = 0 ∧ t.mem = s.mem ∧ t.cores = s.cores))
      ∧ (c.st < 2 → Does (.recall n line) s (fun t => t.cline n line = c ∧ t.ms.dir = s.ms.dir ∧ t.mem = s.mem ∧ t.cores = s.cores)))

/-- R513: the cell that LEDGER_ADD operations leave, and with it the value that LEDGER_SETTLE returns, depends only on the multiset of terms added, FP32 terms
and pairs of a sum term and an error term alike, and not on their order or on how requests split them. `x.1` is the type, `x.2` the term. -/
def Obligations.LedgerOrderFree : Prop :=
  ∀ (cell : Nat) (l l' : List (Nat × Nat)), l.Perm l' →
    l.foldl (fun c x => ledgerAddCell c x.1 x.2) cell = l'.foldl (fun c x => ledgerAddCell c x.1 x.2) cell
    ∧ ∀ sat, (unpackCell (l.foldl (fun c x => ledgerAddCell c x.1 x.2) cell)).settle sat
        = (unpackCell (l'.foldl (fun c x => ledgerAddCell c x.1 x.2) cell)).settle sat

/-- R491 and R788, R514 to R517, R536 to R550 and R558: a patrol pass counts its corrections and marks each line with an uncorrectable error; MOVE_COPY_END begins another
pass, or the hold once at most 64 lines are marked or four passes are used; MOVE_SWITCH rewrites the entry of the moved page and sets DONE;
WINDOW_BOUNDARY ends the window of every port, whose overdraft becomes its debt, and counts the window. -/
def Obligations.ControllerAndMoverEventsComplete : Prop :=
  ∀ (s : State),
    (∀ (n : McId) corrected bad, s.reg .mcScrubH n 0 ≠ 0 →
      Does (.patrolScrub n corrected bad) s (fun t => (∀ a ∈ bad, a < 2 ^ 40 → ctlOf a = n.val → a / 64 ∈ t.mem.poison ∧ t.reg .mcUe n 0 = 1)
        ∧ t.mem.cells = s.mem.cells ∧ t.cores = s.cores
        ∧ (s.reg .mcCeCount n 0 < 2 ^ Fld.mcCeCount.spec.w → t.reg .mcCeCount n 0 = min (s.reg .mcCeCount n 0
            + (corrected.filter (fun a => decide (a < 2 ^ 40) && decide (ctlOf a = n.val))).length) (2 ^ Fld.mcCeCount.spec.w - 1))))
    ∧ (∀ (n : Fin 2) ecc, (s.mover n).phase = 2 → (s.bwPort Cls.mover n).late = 0 → ((s.mover n).marked.length ≤ 64 ∨ 4 ≤ (s.mover n).passes) →
      Does (.moveCopyEnd ⟨n, ecc⟩) s (fun t => t.mover n = { s.mover n with phase := 3 } ∧ t.ms.queues = s.ms.queues ∧ t.cores = s.cores))
    ∧ (∀ (n : Fin 2) ecc, (s.bwPort Cls.mover n).late = 0 → ((s.mover n).phase = 1 ∨ ((s.mover n).phase = 2 ∧ 64 < (s.mover n).marked.length ∧ (s.mover n).passes < 4)) → s.portOpen Cls.mover n = true →
      Does (.moveCopyEnd ⟨n, ecc⟩) s (fun t => (t.mover n).phase = 2 ∧ (t.mover n).marked = [] ∧ (t.mover n).passes = (s.mover n).passes + 1
        ∧ t.reg .movePasses 0 n = ((s.mover n).passes + 1) % 2 ^ Fld.movePasses.spec.w ∧ t.cores = s.cores))
    ∧ (∀ (n : Fin 2) ecc, (s.mover n).phase = 3 → s.pageBusy (s.mover n).src = false → (s.mover n).pid = none → (s.mover n).held = [] → (s.mover n).marked = [] →
      Does (.moveSwitch ⟨n, ecc⟩) s (fun t => (t.mover n).phase = 0 ∧ t.reg .moveGo 0 n = 0 ∧ t.reg .moveDone 0 n = 1 ∧ t.cores = s.cores
        ∧ ∀ a e, s.leaf2M (s.mover n).part (s.mover n).pa = some (a, e) → inControl a = false →
            t.mem.reads a 8 = toBytes 8 (putBits e 21 19 ((s.mover n).dst / 2 ^ 21)) ∧ ∀ b, b < a ∨ a + 8 ≤ b → t.mem.byte b = s.mem.byte b))
    ∧ (tabWf ({} : BwPort) s.ms.ports = true → (∀ x ∈ s.ms.ports, x.2.held = [] ∧ x.2.late = 0) → s.ms.telem = [] →
      Does .windowBoundary s (fun t => t.rd .bwrWindow = (s.rd .bwrWindow + 1) % 2 ^ Fld.bwrWindow.spec.w
        ∧ (∀ c p, c < 8 → p < 256 → (t.bwPort c p).count = 0 ∧ (t.bwPort c p).overd = 0 ∧ (t.bwPort c p).debt = (s.bwPort c p).overd)
        ∧ t.cores = s.cores ∧ t.mem = s.mem))

/-- An access of `size` bytes at `off` reaches the place `l` (R836 to R839, R845): it arrives, its size and alignment are legal, it does not lie in an
MSI-X structure, and the island of a core's block answers without a wake. -/
def Sys2Proof.Claims.Reaches (s : State) (who : Requester) (off size : Nat) (l : Loc) : Prop :=
  s.reaches who = true ∧ sizeOk off size = true ∧ msixLoc who off = none ∧ s.place who off = some l
    ∧ (l.blk.ofCore = true → s.islandOff l.inst = false ∧ (s.core l.inst).cstate = 0)

/-- A write reaches `l`, and no lock keeps it out (R849). -/
def Sys2Proof.Claims.Opens (s : State) (a : Access) (l : Loc) : Prop := Reaches s a.who a.off a.size l ∧ s.lockedOut a.who l = false

/-- The event is in the global status, and its fields are all that the write changed (R854): nothing but the event is recorded. -/
def Sys2Proof.Claims.OnlyEvent (s t : State) (ev : Nat) : Prop :=
  (t.rd .kprGstatus).testBit ev = true ∧ RegsCores s t ∧ t.cores = s.cores
    ∧ RegsBut s t (fun f _ _ => f ∈ ([.kprGstatus, .kprGlogNext, .kprGlogEvent, .kprGlogBlock, .kprGlogInstance, .kprGlogOffset, .kprGlogSource,
        .kprGlogEpoch, .kprGlogValid] : List Fld))

/-- The write takes effect on register fields alone: the listed copies take the listed values, and nothing else changes. -/
def Sys2Proof.Claims.Stores (c : Instr) (s : State) (vs : List (Fld × Nat × Nat × Nat)) : Prop :=
  Does c s (fun t => (∀ x ∈ vs, t.reg x.1 x.2.1 x.2.2.1 = x.2.2.2) ∧ RegsCores s t ∧ t.cores = s.cores
    ∧ RegsBut s t (fun f i j => ∃ x ∈ vs, x.1 = f ∧ x.2.1 = i ∧ x.2.2.1 = j))

/-- RW fields that are stored as they are written, in blocks whose registers are not written as a whole; those in the list of R10 with a legal
range are in the second list. -/
def Sys2Proof.Claims.plainRw : List Fld :=
  [.seamPackAhead, .spdScrubInterval, .mcScrubH, .moveSrc, .moveDst, .movePartition, .cmdSqLoc, .cmdSqBase, .cmdSqEn, .cmdSqCq, .cmdCqLoc, .cmdCqBase,
   .cmdCqEn, .cmdCqVector, .cmdCqCoalN, .cmdCqCoalUs, .partXlateEn, .partXlateBase, .kprResetPart, .kprKeepMem, .kprResetMask, .kprErrVector,
   .kprErrClassMask, .kprIntVec]
def Sys2Proof.Claims.rangedRw : List Fld :=
  [.cmdSqSizeLog2, .cmdCqSizeLog2, .cmdAperture, .notifyVec, .kprResetKind, .kprUeFence, .kprCeFence, .dbgCapAddr]

/-- A field that a write carrying `ones` in it leaves as it is (Table 00-3): a read-only one, or one that acts on a 1 and gets none. -/
def Sys2Proof.Claims.quiet (f : Fld) (ones : Nat) : Prop :=
  f.spec.acc = .ro ∨ f.spec.acc = .rc ∨ ((f.spec.acc = .w1c ∨ f.spec.acc = .w1s ∨ f.spec.acc = .wo) ∧ ones = 0)

/-- R10, R12 and Table 00-3: a write stores the bits that it covers of each plain RW field, keeps a field whose new value its table does not list as legal
and records ILLEGAL, and clears the ones of the W1C fields that it carries as 1. -/
def Obligations.RegisterWritesStore : Prop :=
  ∀ (s : State) (a : Access) (l : Loc), Opens s a l → l.win = none → l.inst < 128 →
    let fs := l.under a.size
    let ones (x : Fld × Nat) : Nat := l.ones a.size a.data.toNat x.1 x.2
    let v (x : Fld × Nat) : Nat := l.merge a.size a.data.toNat x.1 x.2 (s.reg x.1 l.inst x.2)
    let rw : List Fld := plainRw ++ rangedRw
    ((∀ x ∈ fs, x.1 ∈ rw ∨ quiet x.1 (ones x)) → (∃ x ∈ fs, x.1 ∈ rw) →
      ((∀ x ∈ fs, x.1 ∈ rangedRw → s.legal x.1 l.inst x.2 (v x) = true) →
        Stores (.registerWrite a) s ((fs.filter (fun x => decide (x.1 ∈ rw))).map (fun x => (x.1, l.inst, x.2, v x % 2 ^ x.1.spec.w))))
      ∧ (∀ x ∈ fs, x.1 ∈ rangedRw → s.legal x.1 l.inst x.2 (v x) = false →
        Does (.registerWrite a) s (fun t => t.reg x.1 l.inst x.2 = s.reg x.1 l.inst x.2 ∧ (t.rd .kprGstatus).testBit Gs.illegal = true ∧ t.cores = s.cores)))
    ∧ ((∀ x ∈ fs, x.1.spec.acc = .w1c ∨ quiet x.1 (ones x)) →
      (∃ x ∈ fs, x.1 ∈ ([.weirShortfall, .bwrOver, .slcRefused, .mcUe, .moveDone, .fnCqStall, .linkQuar, .kprGstatus, .spdUe, .dbgFull] : List Fld)) →
        Stores (.registerWrite a) s ((fs.filter (fun x => decide (x.1.spec.acc = .w1c))).map
          (fun x => (x.1, l.inst, x.2, (s.reg x.1 l.inst x.2 - (s.reg x.1 l.inst x.2 &&& ones x)) % 2 ^ x.1.spec.w))))

/-- R840, R842, R843, R845 and R839: a read of a register answers its bits and clears an RC field that it returns whole; one of a place that no table
assigns, and one of a core island that does not answer, returns 0 and records the event; one of an MSI-X entry returns it. -/
def Obligations.RegisterReads : Prop :=
  ∀ (s : State) (who : Requester) (off size : Nat), s.reaches who = true → who ≠ .trq →
    (∀ l, Reaches s who off size l → l.win = none → l.assigned size = true → l.inst < 256 →
      let fs := l.under size
      (∀ x ∈ fs, x.1 ≠ .kprIntStatus ∧ x.1 ≠ .kprCommitPending) →
      Does (.registerRead who off size) s (fun t =>
        (∃ o, t.out = s.out ++ [.readData who off size (fs.map (fun x => let y := l.span size x.1 x.2
            if x.1.spec.acc = .wo then 0 else bits (s.reg x.1 l.inst x.2) y.1 y.2.1 * 2 ^ y.2.2)).sum] ++ o ∧ ∀ y ∈ o, ∃ n, y = Out.msix 16 n)
        ∧ (∀ x ∈ fs, t.reg x.1 l.inst x.2 = if x.1.spec.acc = .rc ∧ (l.span size x.1 x.2).2.1 = x.1.spec.w then 0 else s.reg x.1 l.inst x.2)
        ∧ RegsBut s t (fun g i n => i = l.inst ∧ (g, n) ∈ fs) ∧ t.cores = s.cores))
    ∧ (msixLoc who off = none → s.place who off = none → sizeOk off size = true →
      Does (.registerRead who off size) s (fun t => (t.rd .kprGstatus).testBit Gs.unmapped = true ∧ .readData who off size 0 ∈ t.out ∧ t.cores = s.cores))
    ∧ (∀ l, s.place who off = some l → msixLoc who off = none → sizeOk off size = true → l.assigned size = true → l.blk.ofCore = true → l.inst < 128 →
      (s.islandOff l.inst = true →
        Does (.registerRead who off size) s (fun t => (t.rd .kprGstatus).testBit Gs.islandOff = true ∧ .readData who off size 0 ∈ t.out ∧ t.cores = s.cores))
      ∧ (s.islandOff l.inst = false → (s.core l.inst).cstate = 1 → Does (.registerRead who off size) s (fun t => (t.core l.inst).cstate = 0)))
    ∧ (∀ fn b, msixLoc who off = some (.entry fn b) → sizeOk off size = true → s.rd .kprReady = 1 →
      exec (.registerRead who off size) s = .next (s.emit (.readData who off size (bits (tabGet 0 (64 * fn + b / 16) s.host.msix) (8 * (b % 16)) (8 * size)))).settle)

/-- R82, R809, R810, R813 and R816: HALT, STEP and RESUME act in debug mode, HALT taking the core's ballast, RESUME in a halted core alone, where a WAIT whose
wake came during the halt goes on (R424); EN is written by the PF while the sequencer does not run and discarded while it
runs; a counter's selection clears it, and a selection of 0x10 or above is kept out (R10). -/
def Obligations.DebugRegisterWrites : Prop :=
  ∀ (s : State) (a : Access) (u : Nat), u < 128 →
    (Opens s a ⟨.dbg, 0x12, u, 0⟩ → s.reg .dbgEn u 0 = 1 → a.data.toNat.testBit 0 = true →
      let w := [(Fld.dbgWrap, u, 0, bits a.data.toNat 4 1), (.dbgFilter, u, 0, bits a.data.toNat 5 9)]
      let ctrl (f : Fld) (i j : Nat) : Prop := i = u ∧ j = 0 ∧ (f = .dbgHalted ∨ f = .dbgWrap ∨ f = .dbgFilter)
      let idle := (∀ x ∈ (s.core u).waits, x.state ≠ 2) ∧ FrontWaits s u
      (bits a.data.toNat 1 3 = 1 → Does (.halt a) s (fun t => t.reg .dbgHalted u 0 = 1 ∧ (∀ x ∈ w, t.reg x.1 x.2.1 x.2.2.1 = x.2.2.2)
          ∧ tabGet 0 u t.pow.ballast = 0 ∧ (∀ v, v ≠ u → tabGet 0 v t.pow.ballast = tabGet 0 v s.pow.ballast)
          ∧ { t.pow with ballast := s.pow.ballast } = s.pow ∧ t.cores = s.cores ∧ t.net = s.net ∧ t.mem = s.mem ∧ RegsBut s t ctrl))
      ∧ (bits a.data.toNat 1 3 = 2 → s.reg .dbgHalted u 0 = 1 → idle → Does (.step a) s (fun t => t.reg .dbgHalted u 0 = 0
          ∧ t.core u = { s.core u with stepOne := true } ∧ RegsCores s t ∧ CoresBut s t u ∧ RegsBut s t ctrl))
      ∧ (bits a.data.toNat 1 3 = 4 → s.reg .dbgHalted u 0 = 1 → idle → Does (.resume a) s (fun t => t.reg .dbgHalted u 0 = 0
          ∧ t.core u = { s.core u with stepOne := false } ∧ RegsCores s t ∧ CoresBut s t u ∧ RegsBut s t ctrl))
      ∧ (∀ x, bits a.data.toNat 1 3 = 4 → s.reg .dbgHalted u 0 = 1 → (s.core u).waits.find? (fun x => decide (x.state = 2)) = some x →
          (s.core u).waits.find? (fun y => decide (y.wid = x.wid)) = some x → x.gate = false → x.code = 0 → (s.core u).hold = .wait x.wid →
          (s.core u).capture = none → FrontWaits s u →
          Does (.resume a) s (fun t => t.reg .dbgHalted u 0 = 0 ∧ (t.core u).hold = .none ∧ Advanced s t u ∧ CoresBut s t u
            ∧ (t.core u).waits = (s.core u).waits.filter (fun y => decide (y.wid ≠ x.wid))))
      ∧ (bits a.data.toNat 1 3 = 2 ∨ bits a.data.toNat 1 3 = 4 → s.reg .dbgHalted u 0 = 0 → ∀ c, c = .step a ∨ c = .resume a →
          (c = .step a → bits a.data.toNat 1 3 = 2) → (c = .resume a → bits a.data.toNat 1 3 = 4) → Stores c s w))
    ∧ (Opens s a ⟨.dbg, 0x12, u, 0⟩ → bits a.data.toNat 1 3 = 0 → a.who = .pf →
      (s.reg .coreRun u 0 = 0 → Stores (.dbgCtrlEnWrite a) s [(.dbgEn, u, 0, bits a.data.toNat 0 1), (.dbgWrap, u, 0, bits a.data.toNat 4 1),
        (.dbgFilter, u, 0, bits a.data.toNat 5 9)])
      ∧ (s.reg .coreRun u 0 = 1 → s.reg .dbgEn u 0 ≠ bits a.data.toNat 0 1 → s.reg .dbgWrap u 0 = bits a.data.toNat 4 1 →
          s.reg .dbgFilter u 0 = bits a.data.toNat 5 9 → Does (.dbgCtrlEnWrite a) s (fun t => OnlyEvent s t Gs.busyWrite)))
    ∧ (∀ i, i < 8 → Opens s a ⟨.dbg, 0x12, u, 0x40 + 8 * i⟩ →
      (a.data.toNat % 256 < 0x10 → Stores (.pmcSelWrite a) s [(.dbgPmcSel, u, i, a.data.toNat % 256), (.dbgPmc, u, i, 0)])
      ∧ (0x10 ≤ a.data.toNat % 256 → Does (.pmcSelWrite a) s (fun t => OnlyEvent s t Gs.illegal)))

/-- R217, R262, R331, R333, R345 and R348: words of the program store, the microcode, the wheel's pattern and the pairs' states are written; the program
store and the pattern are kept while the sequencer runs, and reserved codes are kept out. -/
def Obligations.CoreStoreWrites : Prop :=
  ∀ (s : State) (a : Access) (u : Nat), u < 128 →
    (∀ i, i < 4096 → Opens s a ⟨.core, 0x11, u, 0x10000 + 16 * i⟩ → a.size = 8 →
      (s.runs u = false → Does (.pstoreWrite a) s (fun t => t.pword u i % 2 ^ 64 = a.data.toNat ∧ bits (t.pword u i) 64 64 = bits (s.pword u i) 64 64
          ∧ (∀ k, k ≠ i → t.pword u k = s.pword u k) ∧ RegsCores s t ∧ CoresBut s t u ∧ t.regs = s.regs))
      ∧ (s.runs u = true → Does (.pstoreWrite a) s (fun t => OnlyEvent s t Gs.busyWrite)))
    ∧ (∀ i, i < 1024 → Opens s a ⟨.swg, 0x13, u, 0x1000 + 4 * i⟩ → a.size = 4 →
      Does (.swgUcodeWrite a) s (fun t => t.uword u i = a.data.toNat % 2 ^ 32
          ∧ (∀ k, k ≠ i → t.uword u k = s.uword u k) ∧ RegsCores s t ∧ CoresBut s t u ∧ t.regs = s.regs))
    ∧ (Opens s a ⟨.spd, 0x15, u, 0⟩ →
      (s.runs u = false → a.data.toNat % 4 ≠ 3 → Stores (.spdWheelWrite a) s [(.spdPattern, u, 0, a.data.toNat % 4)])
      ∧ (s.runs u = false → a.data.toNat % 4 = 3 → Does (.spdWheelWrite a) s (fun t => OnlyEvent s t Gs.illegal))
      ∧ (s.runs u = true → Does (.spdWheelWrite a) s (fun t => OnlyEvent s t Gs.busyWrite)))
    ∧ (Opens s a ⟨.spd, 0x15, u, 8⟩ → a.size = 4 →
      let want (p : Nat) : Nat := bits a.data.toNat (2 * p) 2
      ((∀ p, p < 8 → want p ≠ 2) → Does (.pairStateWrite a) s (fun t => t.reg .spdPairState u 0 = a.data.toNat % 65536
          ∧ (∀ p, p < 8 → (s.core u).pairRun.any (fun x => decide (x.1 = p)) = false → want p ≠ s.pairIs u p →
              (want p = 3 → (p, 3) ∈ (t.core u).pairRun ∧ (t.reg .spdBusy u 0).testBit p = true)
              ∧ (want p ≠ 3 → (p, want p) ∈ (t.core u).pairNext))
          ∧ (t.core u).pairAct = (s.core u).pairAct ∧ (t.core u).spd = (s.core u).spd ∧ RegsCores s t ∧ CoresBut s t u
          ∧ RegsBut s t (fun f i j => i = u ∧ j = 0 ∧ (f = .spdPairState ∨ f = .spdBusy))))
      ∧ ((∃ p, p < 8 ∧ want p = 2) → Does (.pairStateWrite a) s (fun t => OnlyEvent s t Gs.illegal)))

/-- R10, R464, R473 and R436: a disabled queue takes a ring that fits and a lend target of its partition and flight; an illegal CELLS is kept out, with BASE
where the ring would not fit then, and everything else of the write takes effect; a lend target outside leaves LEND_EN 0; of an enabled queue's
writes one that reaches EN and changes nothing else writes EN, and every other is discarded (log 102). A write of a send entry's QUOTA sets the
credits of every target, an illegal one is kept out. -/
def Obligations.QueueRegisterWrites : Prop :=
  ∀ (s : State) (a : Access) (u q : Nat), u < 128 → q < 16 →
    let d := a.data.toNat
    (Opens s a ⟨.core, 0x11, u, 0x400 + 16 * q⟩ → a.size = 8 →
      let lendOk := bits d 35 1 = 0 ∨ (s.partOf (bits d 36 7) = s.partOf u ∧ s.reg .qdFlight (bits d 36 7) (bits d 43 4) = s.reg .qdFlight u q)
      let base := bits d 1 14
      let cells := bits d 15 13
      let lend : List (Fld × Nat × Nat × Nat) := [(.qdLendCore, u, q, bits d 36 7), (.qdLendQ, u, q, bits d 43 4), (.qdLendMin, u, q, bits d 47 13)]
      let illegal (ls : List (Fld × Nat × Nat × Nat)) : Prop := Does (.qdWrite a) s (fun t => (∀ x ∈ ls, t.reg x.1 x.2.1 x.2.2.1 = x.2.2.2)
        ∧ (t.rd .kprGstatus).testBit Gs.illegal = true ∧ RegsCores s t ∧ t.cores = s.cores)
      (s.reg .qdEn u q = 0 → 1 ≤ cells → cells ≤ 4096 → base + cells ≤ 12288 →
        (lendOk → Stores (.qdWrite a) s ([(.qdEn, u, q, bits d 0 1), (.qdBase, u, q, base), (.qdCells, u, q, cells), (.qdLendEn, u, q, bits d 35 1)] ++ lend))
        ∧ (¬ lendOk → illegal ([(.qdEn, u, q, bits d 0 1), (.qdBase, u, q, base), (.qdCells, u, q, cells), (.qdLendEn, u, q, 0)] ++ lend)))
      ∧ (s.reg .qdEn u q = 0 → cells = 0 ∨ 4096 < cells → lendOk →
        (base + s.reg .qdCells u q ≤ 12288 → illegal ([(.qdEn, u, q, bits d 0 1), (.qdBase, u, q, base), (.qdCells, u, q, s.reg .qdCells u q),
          (.qdLendEn, u, q, bits d 35 1)] ++ lend))
        ∧ (12288 < base + s.reg .qdCells u q → illegal ([(.qdEn, u, q, bits d 0 1), (.qdBase, u, q, s.reg .qdBase u q),
          (.qdCells, u, q, s.reg .qdCells u q), (.qdLendEn, u, q, bits d 35 1)] ++ lend)))
      ∧ (s.reg .qdEn u q = 0 → 1 ≤ cells → cells ≤ 4096 → 12288 < base + cells → lendOk →
        illegal ([(.qdEn, u, q, bits d 0 1), (.qdBase, u, q, s.reg .qdBase u q), (.qdCells, u, q, s.reg .qdCells u q),
          (.qdLendEn, u, q, bits d 35 1)] ++ lend))
      ∧ (s.reg .qdEn u q = 1 →
        let same := s.reg .qdBase u q = base ∧ s.reg .qdCells u q = cells ∧ s.reg .qdLendEn u q = bits d 35 1
          ∧ s.reg .qdLendCore u q = bits d 36 7 ∧ s.reg .qdLendQ u q = bits d 43 4 ∧ s.reg .qdLendMin u q = bits d 47 13
        (same → Stores (.qdWrite a) s [(.qdEn, u, q, bits d 0 1)])
        ∧ (¬ same → Does (.qdWrite a) s (fun t => OnlyEvent s t Gs.busyWrite))))
    ∧ (Opens s a ⟨.core, 0x11, u, 0x400 + 16 * q⟩ → a.size = 4 → s.reg .qdEn u q = 1 → s.reg .qdBase u q = bits d 1 14 →
      s.reg .qdCells u q = bits d 15 13 → Stores (.qdWrite a) s [(.qdEn, u, q, bits d 0 1)])
    ∧ (Opens s a ⟨.core, 0x11, u, 0x404 + 16 * q⟩ → s.reg .qdEn u q = 1 → Does (.qdWrite a) s (fun t => OnlyEvent s t Gs.busyWrite))
    ∧ (Opens s a ⟨.core, 0x11, u, 0x408 + 16 * q⟩ →
      (s.reg .qdEn u q = 0 → Stores (.qdWrite a) s [(.qdFlight, u, q, d % 65536)])
      ∧ (s.reg .qdEn u q = 1 → Does (.qdWrite a) s (fun t => OnlyEvent s t Gs.busyWrite)))
    ∧ (Opens s a ⟨.core, 0x11, u, 0x500 + 16 * q⟩ → a.size = 8 →
      (1 ≤ bits d 21 13 → bits d 21 13 ≤ 4096 → Does (.qsWrite a) s (fun t => t.reg .qsEn u q = bits d 0 1 ∧ t.reg .qsMode u q = bits d 1 1 ∧ t.reg .qsTchip u q = bits d 2 8
        ∧ t.reg .qsTcore u q = bits d 10 7 ∧ t.reg .qsTq u q = bits d 17 4 ∧ t.reg .qsFlight u q = bits d 48 16
        ∧ t.reg .qsQuota u q = bits d 21 13 ∧ t.reg .qsCredits u q = bits d 21 13 ∧ (∀ m, m < 8 → tabGet 0 (8 * q + m) (t.core u).dealCr = bits d 21 13)
        ∧ RegsCores s t ∧ CoresBut s t u
        ∧ RegsBut s t (fun f i j => i = u ∧ j = q ∧ f ∈ ([.qsEn, .qsMode, .qsTchip, .qsTcore, .qsTq, .qsQuota, .qsCredits, .qsFlight] : List Fld))))
      ∧ (bits d 21 13 = 0 ∨ 4096 < bits d 21 13 → Does (.qsWrite a) s (fun t => t.reg .qsEn u q = bits d 0 1 ∧ t.reg .qsMode u q = bits d 1 1
        ∧ t.reg .qsTchip u q = bits d 2 8 ∧ t.reg .qsTcore u q = bits d 10 7 ∧ t.reg .qsTq u q = bits d 17 4 ∧ t.reg .qsFlight u q = bits d 48 16
        ∧ t.reg .qsQuota u q = s.reg .qsQuota u q ∧ t.reg .qsCredits u q = s.reg .qsCredits u q
        ∧ (t.rd .kprGstatus).testBit Gs.illegal = true ∧ RegsCores s t ∧ t.cores = s.cores)))
    ∧ (Opens s a ⟨.core, 0x11, u, 0x500 + 16 * q⟩ → a.size = 4 → Does (.qsWrite a) s (fun t => t.reg .qsEn u q = bits d 0 1
        ∧ t.reg .qsMode u q = bits d 1 1 ∧ t.reg .qsTchip u q = bits d 2 8 ∧ t.reg .qsTcore u q = bits d 10 7 ∧ t.reg .qsTq u q = bits d 17 4
        ∧ (let v := putBits (s.reg .qsQuota u q) 0 11 (bits d 21 11)
           if 1 ≤ v ∧ v ≤ 4096 then t.reg .qsQuota u q = v ∧ t.reg .qsCredits u q = v
           else t.reg .qsQuota u q = s.reg .qsQuota u q ∧ t.reg .qsCredits u q = s.reg .qsCredits u q ∧ (t.rd .kprGstatus).testBit Gs.illegal = true)
        ∧ RegsCores s t ∧ CoresBut s t u))

/-- R571, R572, R591 and R592: a write of a sluice is a RESET with its count and an ARM with its control bits; a RESET of a BARRIER that is not GLOBAL to
EXPECT 0 is refused; a partition's range is taken where it overlaps no other enabled one and ends by sluice 16,383. -/
def Obligations.SluiceRegisterWrites : Prop :=
  ∀ (s : State) (a : Access) (i p : Nat), i < 16384 → p < 16 → a.size = 8 →
    let d := a.data.toNat
    (Opens s a ⟨.slc, 8, 0, 8 * i⟩ → (∀ x ∈ s.waiters, x.num ≠ i) →
      let c := bits d 48 8
      (s.resetBad i (bits d 0 48) = false → cGlobal c = false → (cMode c = 2 → bExpect (bits d 0 48) ≠ 0) →
        Does (.sluiceRegisterWrite a) s (fun t => t.slcCount i = bits d 0 48 ∧ t.slcCtl i = putBits (putBits (s.slcCtl i) 8 2 0) 0 8 c
          ∧ t.waiters = s.waiters ∧ t.net = s.net ∧ t.cores = s.cores
          ∧ RegsBut s t (fun f _ j => ((f = .sluiceCount ∨ f = .sluiceCtrl) ∧ j = i) ∨ f = .slcWaiters)))
      ∧ (s.resetBad i (bits d 0 48) = true → cGlobal c = false → cMode c ≠ 2 →
        Does (.sluiceRegisterWrite a) s (fun t => t.slcCount i = s.slcCount i ∧ t.rd .slcRefused = 1 ∧ t.rd .slcLastNum = i ∧ t.cores = s.cores)))
    ∧ (Opens s a ⟨.slc, 8, 0, 0x20000 + 8 * p⟩ →
      let b := bits d 0 14
      let n := bits d 14 15
      let clash := 16384 < b + n ∨ ∃ q, q < 16 ∧ q ≠ p ∧ s.reg .slcPartEn 0 q = 1 ∧ 0 < n ∧ 0 < s.reg .slcPartSize 0 q
        ∧ b < s.reg .slcPartBase 0 q + s.reg .slcPartSize 0 q ∧ s.reg .slcPartBase 0 q < b + n
      (¬ clash → Stores (.slcPartWrite a) s [(.slcPartBase, 0, p, b), (.slcPartSize, 0, p, n), (.slcPartEn, 0, p, bits d 29 1), (.slcPartFlight, 0, p, bits d 32 16)])
      ∧ (clash → Does (.slcPartWrite a) s (fun t => t.reg .slcPartBase 0 p = s.reg .slcPartBase 0 p ∧ t.reg .slcPartSize 0 p = s.reg .slcPartSize 0 p
          ∧ t.reg .slcPartEn 0 p = bits d 29 1 ∧ t.reg .slcPartFlight 0 p = bits d 32 16 ∧ (t.rd .kprGstatus).testBit Gs.illegal = true
          ∧ RegsCores s t ∧ t.cores = s.cores)))

/-- R38, R41 to R47, R604, R605 and R636: HOLD takes a link down and its release trains it; RETRAIN and UNQUAR train it, UNQUAR alone in QUARANTINED;
KLK_TOPOLOGY stores the chip's place until LOCKED, which a legal place alone sets. -/
def Obligations.LinkRegisterWrites : Prop :=
  ∀ (s : State) (a : Access),
    let d := a.data.toNat
    (∀ l, l < 24 → Opens s a ⟨.klk, 9, 0, 0x1000 + 256 * l⟩ → a.size = 4 →
      let trains (t : State) : Prop := t.reg .linkState 0 l = 1 ∧ (t.link l).training = true ∧ (t.link l).retryWait = false ∧ (t.link l).fast = false
        ∧ t.cores = s.cores ∧ ∀ k, k ≠ l → t.link k = s.link k
      let free := s.rd .klkLocked = 1 ∧ (l < 14 ∨ (l - 14) / 2 < s.rd .klkTrayLog2)
      (d.testBit 1 = false → d.testBit 3 = false → s.reg .linkState 0 l ≠ 3 →
        (d.testBit 0 = true → s.reg .linkHold 0 l = 0 → Does (.linkHoldWrite a) s (fun t => t.reg .linkHold 0 l = 1 ∧ t.reg .linkState 0 l = 4
          ∧ (t.link l).waiting = [] ∧ (t.link l).training = false ∧ t.net = (s.link l).waiting.map (fun m => { m with link := 24 }) ++ s.net
          ∧ (∀ k, k ≠ l → t.link k = s.link k) ∧ t.cores = s.cores))
        ∧ (d.testBit 0 = false → s.reg .linkHold 0 l = 1 → free → Does (.linkHoldWrite a) s (fun t => t.reg .linkHold 0 l = 0 ∧ trains t)))
      ∧ (d.testBit 1 = true → d.testBit 0 = false → d.testBit 3 = false → s.reg .linkHold 0 l = 0 →
        (s.reg .linkState 0 l ≠ 3 → free → Does (.retrain a) s (fun t => trains t ∧ (t.link l).attempts = 0))
        ∧ (s.reg .linkState 0 l = 3 → Does (.retrain a) s (fun t => t.reg .linkState 0 l = 3 ∧ t.links = s.links ∧ t.net = s.net)))
      ∧ (d.testBit 3 = true → d.testBit 0 = false → d.testBit 1 = false → s.reg .linkHold 0 l = 0 →
        (s.reg .linkState 0 l = 3 → free → Does (.unquar a) s (fun t => trains t ∧ (t.link l).attempts = 0))
        ∧ (s.reg .linkState 0 l ≠ 3 → Does (.unquar a) s (fun t => t.reg .linkState 0 l = s.reg .linkState 0 l ∧ t.links = s.links ∧ t.net = s.net))))
    ∧ (Opens s a ⟨.klk, 9, 0, 0⟩ → a.size = 4 → bits d 8 3 ≤ 5 →
      let c := d % 256
      let legal := c % 8 = s.rd .klkStrapSlot ∧ c / 8 < 2 ^ bits d 8 3
      (s.rd .klkLocked = 0 → d.testBit 24 = false → Stores (.klkTopologyWrite a) s [(.klkChipNum, 0, 0, c), (.klkTrayLog2, 0, 0, bits d 8 3)])
      ∧ (s.rd .klkLocked = 0 → d.testBit 24 = true → legal → Does (.klkTopologyWrite a) s (fun t => t.rd .klkLocked = 1 ∧ t.rd .klkChipNum = c
          ∧ t.rd .klkTrayLog2 = bits d 8 3 ∧ t.cores = s.cores
          ∧ ∀ l, l < 24 → t.reg .linkState 0 l = if s.reg .linkState 0 l ≠ 3 ∧ (s.reg .linkHold 0 l = 1 ∨ (14 ≤ l ∧ bits d 8 3 ≤ (l - 14) / 2)) then 4
              else s.reg .linkState 0 l))
      ∧ (s.rd .klkLocked = 0 → d.testBit 24 = true → ¬ legal → Does (.klkTopologyWrite a) s (fun t => t.rd .klkLocked = 0
          ∧ (t.rd .kprGstatus).testBit Gs.topology = true ∧ t.cores = s.cores ∧ t.links = s.links))
      ∧ (s.rd .klkLocked = 1 → Stores (.klkTopologyWrite a) s []))

/-- R687, R699, R700, R705, R741, R514 and R533: a job ring is set up while its EN is 0 and kept while it is 1; SQ_TAIL takes a value within the ring; CQ_HEAD
frees entries; GO of a mover starts a legal move, an illegal one leaves MOVE_BAD, and a write with GO for a busy mover is discarded. -/
def Obligations.RingAndMoverWrites : Prop :=
  ∀ (s : State) (a : Access),
    let d := a.data.toNat
    (∀ e p, e < 4 → p < 16 →
      (Opens s a ⟨.tow, 0xB, e, 32 * p⟩ → a.size = 4 →
        (s.reg .towRingEn e p = 0 → bits d 1 4 ≤ 12 →
          Stores (.towRingWrite a) s [(.towRingEn, e, p, bits d 0 1), (.towRingSizeLog2, e, p, bits d 1 4), (.towRingDoorbell, e, p, bits d 5 14)])
        ∧ (s.reg .towRingEn e p = 1 → s.reg .towRingSizeLog2 e p ≠ bits d 1 4 ∨ s.reg .towRingDoorbell e p ≠ bits d 5 14 →
          Does (.towRingWrite a) s (fun t => OnlyEvent s t Gs.busyWrite)))
      ∧ (Opens s a ⟨.tow, 0xB, e, 32 * p + 8⟩ → a.size = 8 →
        (s.reg .towRingEn e p = 0 → d % 128 = 0 → Stores (.towRingWrite a) s [(.towRingBase, e, p, d % 2 ^ 40)])
        ∧ (s.reg .towRingEn e p = 0 → d % 128 ≠ 0 → Does (.towRingWrite a) s (fun t => OnlyEvent s t Gs.illegal))
        ∧ (s.reg .towRingEn e p = 1 → Does (.towRingWrite a) s (fun t => OnlyEvent s t Gs.busyWrite))))
    ∧ (∀ f r, f < 17 → r < 4 →
      (Opens s a ⟨.cmd, 1, f, 0x10 + 64 * r⟩ →
        (d % 65536 < 2 ^ s.reg .cmdSqSizeLog2 f r → Stores (.sqTailWrite a) s [(.cmdSqTail, f, r, d % 65536)])
        ∧ (2 ^ s.reg .cmdSqSizeLog2 f r ≤ d % 65536 → Does (.sqTailWrite a) s (fun t => OnlyEvent s t Gs.illegal)))
      ∧ (Opens s a ⟨.cmd, 1, f, 0x30 + 64 * r⟩ → s.reg .cmdCqSizeLog2 f r < 16 →
        Does (.cqHeadWrite a) s (fun t => t.reg .cmdCqHead f r = d % 65536
          ∧ ((t.cq f r).full = true ↔ (s.reg .cmdCqTail f r + 65536 - d % 65536) % 65536 = 2 ^ s.reg .cmdCqSizeLog2 f r)
          ∧ ((t.reg .fnCqFull f 0).testBit r = (t.cq f r).full) ∧ t.cores = s.cores
          ∧ RegsBut s t (fun g i j => i = f ∧ ((g = .cmdCqHead ∧ j = r) ∨ (g = .fnCqFull ∧ j = 0))))))
    ∧ (∀ m : Fin 2, Opens s a ⟨.mcMove, 7, 0, 0x10 + 32 * m.val⟩ → a.size = 4 → d.testBit 8 = true → (s.mover m).phase = 0 →
      let s1 := s.setReg .movePartition 0 m (d % 16)
      let src := s.reg .moveSrc 0 m
      let dst := s.reg .moveDst 0 m
      (s1.moveBad (d % 16) src dst = true →
        Stores (.moveGo a) s [(.movePartition, 0, m, d % 16), (.moveCode, 0, m, St.moveBad)])
      ∧ (s1.moveBad (d % 16) src dst = false →
        Does (.moveGo a) s (fun t => (t.mover m).phase = 1 ∧ (t.mover m).part = d % 16 ∧ (t.mover m).dst = dst ∧ (t.mover m).src = s1.pageOf (d % 16) src
          ∧ t.reg .moveGo 0 m = 1 ∧ t.reg .moveCode 0 m = 0 ∧ t.mem = s.mem.copyPage (s1.pageOf (d % 16) src) dst ∧ t.cores = s.cores)))
    ∧ (∀ m : Fin 2, Opens s a ⟨.mcMove, 7, 0, 0x10 + 32 * m.val⟩ → d.testBit 8 = true → (s.mover m).phase ≠ 0 → Stores (.moveGo a) s [])

/-- R74, R98, R101, R542 and R774: a staged field takes its value, cut by its hardware limit, in the pending copy alone; P_STATIC is written at once. R775,
R781 and R19: GO captures the pending copies, and while GO is 1 sets MERGED, after a 1 in it has cleared it. R827: MASTER does not stand beside PACE_SRC 1. R758: MEMZERO.GO is set. -/
def Obligations.PolicyRegisterWrites : Prop :=
  ∀ (s : State) (a : Access),
    let d := a.data.toNat
    (Opens s a ⟨.rsv, 3, 0, 0⟩ → a.size = 4 →
      let p := min (bits d 0 11) s.fuses.peakMaxW
      let q := min (bits d 16 11) p
      Does (.stagedRegisterWrite a) s (fun t => t.pending? .rsvPeakW 0 = p ∧ t.pending? .rsvSustainW 0 = q
        ∧ t.rd .weirClamped = (if p = bits d 0 11 ∧ q = bits d 16 11 then s.rd .weirClamped else 1)
        ∧ RegsBut s t (fun f _ _ => f = .weirClamped) ∧ t.cores = s.cores ∧ t.pow = s.pow))
    ∧ (∀ p, p < 16 → Opens s a ⟨.rsv, 3, 0, 0x40 + 4 * p⟩ → a.size = 4 →
      Does (.stagedRegisterWrite a) s (fun t => t.pending? .rsvShareWeight p = d % 256 ∧ (∀ q, q < 16 → q ≠ p → t.pending? .rsvShareWeight q = s.pending? .rsvShareWeight q)
        ∧ RegsBut s t (fun _ _ _ => False) ∧ t.cores = s.cores ∧ t.pow = s.pow))
    ∧ (∀ c, c < 4 → Opens s a ⟨.bwr, 5, 0, 16 * c⟩ → a.size = 8 →
      (bits d 24 4 < bits d 28 4 → bits d 28 4 < bits d 32 4 →
        Does (.stagedRegisterWrite a) s (fun t => t.pending? .classMode c = bits d 0 1 ∧ t.pending? .classPrio c = bits d 1 3 ∧ t.pending? .classBudget c = bits d 4 20
          ∧ t.pending? .classMidAt c = bits d 24 4 ∧ t.pending? .classHighAt c = bits d 28 4 ∧ t.pending? .classCritAt c = bits d 32 4
          ∧ RegsBut s t (fun _ _ _ => False) ∧ t.cores = s.cores))
      ∧ (¬ (bits d 24 4 < bits d 28 4 ∧ bits d 28 4 < bits d 32 4) →
        Does (.stagedRegisterWrite a) s (fun t => t.pending? .classMode c = bits d 0 1 ∧ t.pending? .classMidAt c = s.pending? .classMidAt c
          ∧ t.pending? .classHighAt c = s.pending? .classHighAt c ∧ t.pending? .classCritAt c = s.pending? .classCritAt c
          ∧ (t.rd .kprGstatus).testBit Gs.illegal = true ∧ t.cores = s.cores)))
    ∧ (Opens s a ⟨.rsv, 3, 0, 0x10⟩ → a.size = 4 → Stores (.pStaticWrite a) s [(.rsvPStaticMw, 0, 0, d % 2 ^ 18)])
    ∧ (Opens s a ⟨.kpr, 2, 0, 0x38⟩ → d.testBit 0 = true → d.testBit 1 = false →
      Does (.commit (.register a)) s (fun t => t.rd .kprCommitGo = 1 ∧ t.capt = s.pend ∧ t.pend = s.pend
        ∧ t.rd .kprCommitMerged = (if s.rd .kprCommitGo = 1 then 1 else s.rd .kprCommitMerged)
        ∧ RegsBut s t (fun f _ _ => f = .kprCommitGo ∨ f = .kprCommitMerged ∨ (s.pow.closed = true ∧ f = .weirShortfall)) ∧ t.cores = s.cores
        ∧ t.pow.grant = s.pow.grant ∧ t.pow.p4 = s.pow.p4 ∧ (s.pow.closed = false → t.pow = s.pow)))
    ∧ (Opens s a ⟨.kpr, 2, 0, 0x38⟩ → d.testBit 0 = true → d.testBit 1 = true →
      Does (.commit (.register a)) s (fun t => t.rd .kprCommitGo = 1 ∧ t.capt = s.pend ∧ t.rd .kprCommitMerged = s.rd .kprCommitGo))
    ∧ (Opens s a ⟨.weir, 4, 0, 0x18⟩ → a.size = 4 →
      let src := bits d 0 2
      let mst := bits d 2 1
      (src = 0 ∨ (src = 1 ∧ mst = 0) ∨ (src = 2 ∧ s.fuses.paceLock = false) →
        Does (.stagedRegisterWrite a) s (fun t => t.pending? .weirPaceSrc 0 = src ∧ t.pending? .weirMaster 0 = mst
          ∧ RegsBut s t (fun _ _ _ => False) ∧ t.cores = s.cores ∧ t.pow = s.pow))
      ∧ (src = 1 → mst = 1 → Does (.stagedRegisterWrite a) s (fun t => t.pending? .weirPaceSrc 0 = s.pending? .weirPaceSrc 0
          ∧ t.pending? .weirMaster 0 = s.pending? .weirMaster 0 ∧ (t.rd .kprGstatus).testBit Gs.illegal = true ∧ t.cores = s.cores ∧ t.pow = s.pow)))
    ∧ (Opens s a ⟨.kpr, 2, 0, 0x28⟩ → d.testBit 0 = true →
      Does (.memzeroGo a) s (fun t => t.rd .kprMemzeroGo = 1 ∧ t.env.fillStarted = (s.env.fillStarted || s.env.keptMem)
        ∧ RegsBut s t (fun f _ _ => f = .kprMemzeroGo) ∧ t.mem = s.mem ∧ t.cores = s.cores))

/-- R850, R852, R857, R858, R865 and Table 17-3 row 6: a bit of KPR_FENCE fences its core; the Keeper alone sets lock bits; an enabled interrupt whose summary
bit stands and was not sent is sent; the telemetry registers are kept while EN is 1, and EN starts the ring. -/
def Obligations.KeeperRegisterWrites : Prop :=
  ∀ (s : State) (a : Access),
    let d := a.data.toNat
    (∀ h, h < 2 → Opens s a ⟨.kpr, 2, 0, 0x130 + 8 * h⟩ → a.size = 8 →
      Does (.kprFenceWrite a) s (fun t => ∀ u, u < 128 → t.fenced u = (s.fenced u || (decide (u / 64 = h) && d.testBit (u % 64)))
        ∧ (¬ (u / 64 = h ∧ d.testBit (u % 64) = true) → t.core u = s.core u)
        ∧ (s.fenced u = false → u / 64 = h → d.testBit (u % 64) = true → s.launchOf u = none → (s.core u).tasked = true →
            t.reg .coreRun u 0 = 0 ∧ (t.core u).tasked = false ∧ (t.core u).cstate = 3 ∧ t.reg .tstatusValid u 0 = 1
              ∧ t.reg .tstatusCode u 0 = St.coreFenced ∧ tabGet 0 u t.pow.ballast = 0)))
    ∧ (Opens s a ⟨.kpr, 2, 0, 0x700⟩ →
      (a.who = .keeper → Stores (.kprExpertWrite a) s [(.kprExpertLock, 0, 0, s.rd .kprExpertLock ||| d % 256)])
      ∧ (a.who = .pf → Does (.kprExpertWrite a) s (fun t => OnlyEvent s t Gs.locked)))
    ∧ (Opens s a ⟨.kpr, 2, 0, 0x408⟩ →
      Does (.intEnWrite a) s (fun t => t.rd .kprIntEn = d % 8192
        ∧ t.out = s.out ++ ((List.range 13).filter (fun i => s.summary.testBit i && (d % 8192).testBit i && !s.env.intLast.testBit i)).map
            (fun i => Out.msix 16 (s.reg .kprIntVec 0 i))
        ∧ RegsBut s t (fun f _ _ => f = .kprIntEn) ∧ t.cores = s.cores))
    ∧ (Opens s a ⟨.kpr, 2, 0, 0x600⟩ → a.size = 8 →
      (s.rd .kprTelemEn = 0 → Stores (.telemCfgWrite a) s [(.kprTelemLoc, 0, 0, bits d 0 1), (.kprTelemBase, 0, 0, bits d 6 58)])
      ∧ (s.rd .kprTelemEn = 1 →
          Does (.telemCfgWrite a) s (fun t => OnlyEvent s t Gs.busyWrite)))
    ∧ (Opens s a ⟨.kpr, 2, 0, 0x608⟩ → s.rd .kprTelemEn = 0 → 8 ≤ bits d 0 5 → bits d 0 5 ≤ 20 → bits d 8 1 = 1 →
      Stores (.telemCfgWrite a) s [(.kprTelemSizeLog2, 0, 0, bits d 0 5), (.kprTelemEn, 0, 0, 1), (.kprTelemTail, 0, 0, 0)])

/-- The die after a POWER-ON reset (Table 16-5): every field that P clears, but those that `p` names, at its Reset value, cores as after a T reset with their
stores lost, memory and everything in flight gone; what the error record slots show, which no reset clears (Table 19-6), is kept. The YZ2-KB block is no part of the module's reset. -/
def Sys2Proof.Claims.PorDone (s t : State) (p : Fld → Prop) : Prop :=
  (∀ f i j, i < 128 → j < 32768 → f.spec.clr.p = true → f ∉ kbFields → ¬ p f → t.reg f i j = resetVal s.fuses f j % 2 ^ f.spec.w)
    ∧ (∀ u, u < 128 → t.core u = (s.core u).afterT.loseStores) ∧ t.core 128 = s.core 128 ∧ t.mem = {} ∧ t.ms = {} ∧ t.net = [] ∧ t.waiters = []
    ∧ t.links = [] ∧ t.host = {} ∧ t.errs = [] ∧ t.errOld = s.keptRecords ∧ t.inbox = [] ∧ t.pend = [] ∧ t.pow.p4 = 4 * s.fuses.pStaticMw ∧ t.fuses = s.fuses

/-- R748, R749, R757, R786, R883 to R885, R889 and R905: the release of RESET_N with supplies in limits starts the module at step 4, or at FUSE_FAIL, with a breach; RESET_N,
a lost supply, the fall of PWR_GOOD or REFCLK156, PWR_EN and THERMTRIP reset it; PWR_GOOD follows the rails. -/
def Obligations.SupplyEventsTakeEffect : Prop :=
  ∀ (s : State),
    (∀ ok, s.env.pwrGood = true → (s.env.resetLow = true ∨ (s.rd .kprStep = 1 ∧ s.rd .kprFuseFail = 0)) →
      Does (.powerOnReset .release ok) s (fun t => PorDone s t (fun f => f = .weirBreach ∨ f = .kprStep ∨ f = .kprFuseFail) ∧ t.rd .weirBreach = 1
        ∧ t.env.resetLow = false ∧ t.rd .kprStep = (if ok then 4 else 1) ∧ t.rd .kprFuseFail = (if ok then 0 else 1)))
    ∧ (∀ ok, Does (.powerOnReset .supplyLoss ok) s (fun t => PorDone s t (fun _ => False) ∧ t.env.pwrGood = s.env.pwrGood))
    ∧ Does .resetNAssert s (fun t => PorDone s t (fun _ => False) ∧ t.env.resetLow = true)
    ∧ (s.env.pwrGood = true → Does (.pwrGoodLoss .pwrGoodFell) s (fun t => PorDone s t (fun _ => False) ∧ t.env.pwrGood = false ∧ .pin "PWR_GOOD" false ∈ t.out))
    ∧ (∀ ns, 10000 < ns → Does (.pwrGoodLoss (.refclk156Stopped ns)) s (fun t => PorDone s t (fun _ => False)))
    ∧ exec .pwrEnAssert s = .next ({ s with env := { s.env with pwrEn := true } } : State).settle
    ∧ (s.env.pwrEn = true → Does .pwrEnDeassert s (fun t => t.env.pwrEn = false ∧ t.env.pwrGood = false ∧ t.env.thermTrip = false
        ∧ (s.env.pwrGood = true → PorDone s t (fun _ => False) ∧ .pin "PWR_GOOD" false ∈ t.out) ∧ (s.env.thermTrip = true → .pin "THERMTRIP_N" true ∈ t.out)))
    ∧ (s.env.pwrEn = true → s.env.pwrGood = false → s.env.thermTrip = false →
        exec .pwrGoodRise s = .next (({ s with env := { s.env with pwrGood := true } } : State).emit (.pin "PWR_GOOD" true)).settle)
    ∧ (∀ j h, 125 ≤ j ∨ 105 ≤ h → Does (.thermtrip j h) s (fun t => PorDone s t (fun _ => False) ∧ t.env.thermTrip = true ∧ t.env.pwrGood = false
        ∧ .pin "THERMTRIP_N" false ∈ t.out ∧ .pin "PWR_GOOD" false ∈ t.out))

/-- R34, R41, R45, R485, R750 to R755, R757 to R759 and R895: the ROM runs the first image that it accepts; TRAY_QUERY's answer is locked where it is legal;
training and zero fills reach their steps; READY follows, unless a controller has failed to train (R486); configuration requests are retried until then, or until 900 ms have passed. -/
def Obligations.StartUpCompletes : Prop :=
  ∀ (s : State),
    (∀ a b, s.rd .kprStep = 4 → s.env.firmware = false → s.rd .kprAuthFail = 0 →
      let runs (h : ImageHdr) (n : Nat) (t : State) : Prop := t.rd .kprStep = 5 ∧ t.rd .kprImage = n ∧ t.rd .kprImageSvn = h.svn.toNat ∧ t.env.firmware = true
        ∧ t.rd .kprFwBuild = bits h.version.toNat 0 16 ∧ t.rd .kprFwMinor = bits h.version.toNat 16 8 ∧ t.rd .kprFwMajor = bits h.version.toNat 24 8 ∧ t.cores = s.cores
      (s.accepts a = true → Does (.firmwareAuthenticate a b) s (runs a 0))
      ∧ (s.accepts a = false → s.accepts b = true → Does (.firmwareAuthenticate a b) s (runs b 1))
      ∧ (s.accepts a = false → s.accepts b = false → Does (.firmwareAuthenticate a b) s (fun t => t.rd .kprAuthFail = 1 ∧ t.env.recovery = true
          ∧ t.rd .kprStep = 4 ∧ t.env.firmware = false)))
    ∧ (∀ h, 4 ≤ s.rd .kprStep → s.env.recovery = true →
      exec (.recovery none) s = .next (s.emit (.mctp 6 0 [])).settle
      ∧ (s.accepts h = true → Does (.recovery (some h)) s (fun t => 5 ≤ t.rd .kprStep ∧ t.rd .kprImage = 1 ∧ t.env.firmware = true ∧ t.env.recovery = false
          ∧ .mctp 6 0 [] ∈ t.out))
      ∧ (s.accepts h = false → exec (.recovery (some h)) s = .next (s.emit (.mctp 6 3 [])).settle))
    ∧ (∀ tray log2, s.env.firmware = true → s.env.trayKnown = false → tray < 32 → log2 ≤ 5 → s.rd .klkLocked = 0 →
      Does (.trayQuery tray log2) s (fun t => t.env.trayKnown = true ∧ t.rd .klkChipNum = 8 * tray + s.rd .klkStrapSlot ∧ t.rd .klkTrayLog2 = log2
        ∧ (tray < 2 ^ log2 → t.rd .klkLocked = 1 ∧ 6 ≤ t.rd .kprStep) ∧ (2 ^ log2 ≤ tray → t.rd .klkLocked = 0 ∧ (t.rd .kprGstatus).testBit Gs.topology = true)
        ∧ t.cores = s.cores))
    ∧ (s.env.firmware = true → s.env.trayKnown = false → exec .trayQueryResend s = .next (s.emit (.mctp 1 0 [])).settle)
    ∧ (∀ tier2, s.env.firmware = true → 6 ≤ s.rd .kprStep → s.trained tier2 = false → s.trainFailed tier2 = false →
      (∀ bin, Does (.memoryTrainingDone tier2 (.ok bin)) s (fun t => (∀ m ∈ tierCtls tier2, t.reg .mcSpeed m 0 = bin.val) ∧ t.trained tier2 = true
          ∧ (if tier2 then 10 else 8) ≤ t.rd .kprStep ∧ t.cores = s.cores))
      ∧ (∀ bin, Does (.memoryTrainingDone tier2 (.fallBack bin)) s (fun t => (∀ m ∈ tierCtls tier2, t.reg .mcSpeed m 0 = bin.val) ∧ t.trained tier2 = false
          ∧ t.rd .kprStep = s.rd .kprStep))
      ∧ (∀ l, Does (.memoryTrainingDone tier2 (.fail l)) s (fun t => (∀ m ∈ l, m ∈ tierCtls tier2 → t.reg .mcTrainFail m 0 = 1) ∧ t.trained tier2 = false
          ∧ t.rd .kprStep = s.rd .kprStep)))
    ∧ (∀ tier2, s.trainFailed tier2 = true → (∀ r, exec (.memoryTrainingDone tier2 r) s = .next s) ∧ ∀ failed, exec (.ready failed) s = .next s)
    ∧ (∀ m : McId, let tier2 := decide (8 ≤ m.val)
      s.trained tier2 = true → (s.env.keptMem = true → s.env.fillStarted = true) → m.val ∉ s.env.filled →
      Does (.zeroFillDone m) s (fun t => (∀ a, ctlOf a = m.val → t.mem.byte a = 0) ∧ (∀ a, ctlOf a ≠ m.val → t.mem.byte a = s.mem.byte a)
        ∧ m.val ∈ t.env.filled ∧ (∀ k ∈ s.env.filled, k ∈ t.env.filled) ∧ t.cores = s.cores
        ∧ ((∀ k ∈ tierCtls tier2, k ≠ m.val → k ∈ s.env.filled) → t.rd (if tier2 then .kprZero2Done else .kprZero1Done) = 1 ∧ (if tier2 then 12 else 9) ≤ t.rd .kprStep)))
    ∧ (∀ failed, s.env.firmware = true → s.env.trained1 = true → s.env.trained2 = true → s.linksTried = true → (s.rd .kprZero1Done = 1 ∨ s.env.keptMem = true) →
      s.rd .kprReady = 0 → s.trainFailed false = false → s.trainFailed true = false →
      Does (.ready failed) s (fun t => t.rd .kprReady = 1 ∧ 11 ≤ t.rd .kprStep ∧ t.env.configOpen = false ∧ t.env.selfRefresh = false ∧ t.pow.closeWait = true
        ∧ (∀ u, u < 128 → t.fenced u = (s.fenced u || failed.toNat.testBit u)) ∧ t.mem = s.mem))
    ∧ (s.hostUp = true → s.rd .kprReady = 0 → exec .configRetryTimeout s = .next ({ s with env := { s.env with configOpen := true } } : State).settle)
    ∧ (∀ fn off, s.hostUp = true → exec (.configurationRequest fn off) s = .next (s.emit
        (if s.rd .kprReady = 1 ∨ s.env.configOpen = true then .configDone fn off else .configRetry fn off)).settle)

/-- The die after a C reset (Table 16-5): every field that C clears but KPR_BOOT.STEP at its Reset value, STEP past the end of step 2; cores and engines as
after a T reset, program stores and memory as they were, everything in flight gone. -/
def Sys2Proof.Claims.ChipDone (s t : State) (keep : Bool) : Prop :=
  (∀ f i j, i < 128 → j < 32768 → f.spec.clr.c = true → f ∉ kbFields → f ≠ .kprStep → t.reg f i j = resetVal s.fuses f j % 2 ^ f.spec.w)
    ∧ t.rd .kprStep = 4 ∧ (∀ u, u < 128 → t.core u = (s.core u).afterT) ∧ t.core 128 = s.core 128 ∧ t.mem = s.mem ∧ t.ms = {} ∧ t.net = [] ∧ t.waiters = []
    ∧ t.links = [] ∧ t.host = {} ∧ t.errs = [] ∧ t.errOld = s.keptRecords ∧ t.inbox = [] ∧ t.env.selfRefresh = true ∧ t.env.keptMem = keep ∧ t.env.firmware = false

/-- A packet has completed with a status: it is gone, and the completion ring bound to its ring holds its status entry, unless it writes none (R704, R707). -/
def Sys2Proof.Claims.Posted (s t : State) (k : Packet) (st : Nat) : Prop :=
  (∀ p ∈ t.host.packets, p.pid ≠ k.pid)
    ∧ (k.discard = false → (k.nocomp = true → st ≠ 0) → ∃ x ∈ (t.cq k.fn (s.reg .cmdSqCq k.fn k.ring)).held,
        x.status = st ∧ x.fn = k.fn ∧ x.ring = k.ring ∧ x.tag = k.htag ∧ x.opcode = k.opcode)

/-- Nothing but packets, held status entries and the free values drawn for their results differs. -/
def Sys2Proof.Claims.OnlyHost (s t : State) : Prop :=
  t = { s with host := { s.host with packets := t.host.packets, cqs := t.host.cqs }, free := t.free, env := { s.env with intLast := t.env.intLast }, out := t.out }
    ∧ IntsOnly s t

/-- R76, R758 to R764, R737, R738, R780 and R785: each reset acts on its unit as Tables 16-2 and 16-5 say, and its request ends; a CHIP or PARTITION reset waits
while power exceeds the floor that it would leave (that floor: log 103). -/
def Obligations.ResetsComplete : Prop :=
  ∀ (s : State),
    (let low := s.atFloor (s.floorLeft (fun _ => true))
      let waits (keep : Bool) (t : State) : Prop := t = { s with env := { s.env with resetWait := some keep, intLast := t.env.intLast }, out := t.out }
      (s.env.resetWait = none →
        (4 ≤ s.rd .kprStep → s.rd .kprReady = 1 →
          (low = true → Does (.chipReset .mctp) s (fun t => ChipDone s t (decide (s.rd .kprKeepMem = 1)) ∧ .mctp 4 0 [] ∈ t.out))
          ∧ (low = false → Does (.chipReset .mctp) s (fun t => waits (decide (s.rd .kprKeepMem = 1)) t ∧ .mctp 4 0 [] ∈ t.out)))
        ∧ (4 ≤ s.rd .kprStep → s.rd .kprReady = 0 → exec (.chipReset .mctp) s = .next (s.emit (.mctp 4 1 [])).settle)
        ∧ (s.rd .kprResetGo = 1 → s.rd .kprResetKind = 1 →
          (low = true → Does (.chipReset .register) s (fun t => ChipDone s t (decide (s.rd .kprKeepMem = 1))))
          ∧ (low = false → Does (.chipReset .register) s (waits (decide (s.rd .kprKeepMem = 1)))))
        ∧ (∀ pid k, s.startedPkt pid 3 = some k → k.get 0x10 1 = 1 →
          (low = true → Does (.chipReset (.packet pid)) s (fun t => ChipDone s t false))
          ∧ (low = false → Does (.chipReset (.packet pid)) s (waits false))))
      ∧ (∀ keep src, s.env.resetWait = some keep →
        (low = true → Does (.chipReset src) s (fun t => ChipDone s t keep)) ∧ (low = false → exec (.chipReset src) s = .next s)))
    ∧ (∀ p : PartId, s.rd .kprResetGo = 1 → s.rd .kprResetKind = 2 → s.rd .kprResetPart = p.val →
      (s.reg .partState 0 p = 1 → Does (.partitionReset .register p) s (fun t => t.reg .partState 0 p = 2 ∧ t.rd .kprResetGo = 1))
      ∧ (s.reg .partState 0 p = 3 → s.atFloor (s.resetFloor p) = false → exec (.partitionReset .register p) s = .next s.settle)
      ∧ (s.reg .partState 0 p = 3 → s.atFloor (s.resetFloor p) = true → Does (.partitionReset .register p) s (fun t => t.reg .partState 0 p = 1 ∧ t.reg .fnPartState p 0 = 1 ∧ t.rd .kprResetGo = 0
          ∧ t.env.intSticky.testBit 10 = true
          ∧ (∀ u ∈ s.coresOf p, t.core u = (s.core u).afterT ∧ ∀ f j, f.spec.blk.ofCore = true → f.spec.clr.t = true → j < 32768 →
              t.reg f u j = resetVal s.fuses f j % 2 ^ f.spec.w)
          ∧ (∀ u, u ∉ s.coresOf p → t.core u = s.core u) ∧ (∀ i ∈ s.sluicesOf p, t.slcCount i = 0 ∧ t.slcCtl i = 0) ∧ t.mem = s.mem)))
    ∧ (∀ (p : PartId) pid k, s.startedPkt pid 3 = some k → k.fn < 17 → k.ring < 4 → k.get 0x10 1 = 2 → k.part = p.val →
      (s.reg .partState 0 p = 1 → Does (.partitionReset (.packet pid) p) s (fun t => t.reg .partState 0 p = 2))
      ∧ (s.reg .partState 0 p = 3 → s.atFloor (s.resetFloor p) = false → Does (.partitionReset (.packet pid) p) s (fun t => t.reg .partState 0 p = 3 ∧ t.cores = s.cores))
      ∧ (s.reg .partState 0 p = 3 → s.atFloor (s.resetFloor p) = true → Does (.partitionReset (.packet pid) p) s (fun t => t.reg .partState 0 p = 1 ∧ Posted s t k 0)))
    ∧ (∀ u : CoreId, u.val < 128 → s.rd .kprResetGo = 1 → s.rd .kprResetKind = 3 → (s.rd .kprResetMask).testBit u = true → s.env.resetDone.testBit u = false →
      (s.partOf u).any (fun p => s.partBusy p) = false → s.fenced u = false →
      ((s.core u).tasked = false → Does (.coreReset .register u) s (fun t => t.core u = ((s.flushAll u).core u).afterK
          ∧ (∀ f j, f.spec.blk.ofCore = true → f.spec.clr.k = true → j < 32768 → t.reg f u j = resetVal s.fuses f j % 2 ^ f.spec.w)
          ∧ (s.rd .kprResetMask &&& (s.env.resetDone ||| 2 ^ u.val) = s.rd .kprResetMask → t.rd .kprResetGo = 0 ∧ t.env.intSticky.testBit 10 = true)
          ∧ (s.rd .kprResetMask &&& (s.env.resetDone ||| 2 ^ u.val) ≠ s.rd .kprResetMask → t.rd .kprResetGo = 1 ∧ t.env.resetDone.testBit u = true)
          ∧ CoresBut s t u))
      ∧ ((s.core u).tasked = true → (s.core u).stopping = true → exec (.coreReset .register u) s = .next (s.haltTask u St.aborted).settle))
    ∧ (∀ l : LinkId, s.rd .kprResetGo = 1 → s.rd .kprResetKind = 4 → (s.rd .kprResetMask).testBit l = true → s.env.resetDone.testBit l = false →
      Does (.linkReset .register l) s (fun t => (t.link l).attempts = 0 ∧ (t.link l).violT = [] ∧ (t.link l).waiting = []
        ∧ (∀ f, f.spec.clr.l = true → f ≠ .linkState → t.reg f 0 l = resetVal s.fuses f l % 2 ^ f.spec.w)
        ∧ (s.rd .klkLocked = 1 → s.linkHeld l = false → t.reg .linkState 0 l = 1 ∧ (t.link l).training = true)
        ∧ (s.linkHeld l = true → t.reg .linkState 0 l = 4) ∧ (∀ m, m ≠ l.val → t.link m = s.link m) ∧ t.cores = s.cores))
    ∧ (∀ fn : FnId, Does (.functionLevelReset fn) s (fun t =>
        (∀ f i j, i < 256 → j < 32768 → t.reg f i j = if f.spec.blk = .cmd ∧ f ≠ .fnPartState ∧ (i = fn.val ∨ (fn.val = 16 ∧ i < 17))
          then resetVal s.fuses f j % 2 ^ f.spec.w else s.reg f i j)
        ∧ (∀ p ∈ t.host.packets, (p.fn = fn.val ∨ (fn.val = 16 ∧ p.fn < 17)) → p.started = true ∧ p.wait ≠ 4 ∧ p.discard = true)
        ∧ t.host.launches = s.host.launches ∧ t.cores = s.cores ∧ t.mem = s.mem ∧ t.net = s.net))
    ∧ Does .pcieHotReset s (fun t => .pcieRetrain ∈ t.out ∧ (∀ f i j, i < 17 → j < 32768 → f.spec.blk = .cmd → f ≠ .fnPartState →
        t.reg f i j = resetVal s.fuses f j % 2 ^ f.spec.w) ∧ t.cores = s.cores ∧ t.mem = s.mem)

/-- R55 to R58, R62 to R67, R85 to R95, R97, R99, R106, R107 and R888: what each event of the Reservoir, the Weir and the pacing source does. -/
def Obligations.PowerEventsTakeEffect : Prop :=
  ∀ (s : State),
    (∀ (w : BitVec 32) cycle, s.pow.closed = false → cycle ≤ 499 → bits w.toNat 0 8 ≤ 236 →
      Does (.powerRequest w cycle) s (fun t => tabGet ⟨0, 0⟩ (bits w.toNat 0 8) t.pow.reqs = ⟨bits w.toNat 8 12, bits w.toNat 20 8⟩
        ∧ (∀ i, i ≠ bits w.toNat 0 8 → tabGet (⟨0, 0⟩ : PowReq) i t.pow.reqs = tabGet ⟨0, 0⟩ i s.pow.reqs) ∧ t.regs = s.regs ∧ t.cores = s.cores))
    ∧ (∀ i, s.pow.closed = true → i < 237 → Does (.grantReceive i) s (fun t => i ∈ t.pow.recv ∧ (∀ j ∈ s.pow.recv, j ∈ t.pow.recv) ∧ t.regs = s.regs ∧ t.cores = s.cores))
    ∧ (∀ i used, i < 237 → let g := s.grantUnits i
      let m := tabGet (⟨g, 0, 0⟩ : Meter) i s.pow.meters
      let u := min used (16 * g * 102 / 100 - m.used)
      (m.sub < 15 → Does (.subWindow i ⟨used, true⟩) s (fun t => tabGet (⟨g, 0, 0⟩ : Meter) i t.pow.meters = ⟨g + (m.allow - u), m.used + u, m.sub + 1⟩
          ∧ t.regs = s.regs ∧ t.cores = s.cores))
      ∧ Does (.subWindow i ⟨used, false⟩) s (fun t => tabGet (⟨g, 0, 0⟩ : Meter) i t.pow.meters = ⟨m.allow - u, m.used + u, m.sub⟩
          ∧ (0 < g → (t.throttled i = true ↔ m.allow ≤ u)) ∧ t.regs = s.regs ∧ t.cores = s.cores))
    ∧ (s.inSlotStart = true →
      Does .pacingSlotStart s (fun t => t.rd .weirRampOpen = (if s.pow.close4 + 4000 * s.rd .weirFreeW < s.pow.demand4 ∧ s.pow.holdAll = false then 1 else s.rd .weirRampOpen)
        ∧ RegsBut s t (fun f _ _ => f = .weirRampOpen) ∧ t.pow = s.pow ∧ t.cores = s.cores))
    ∧ (∀ frame : BitVec 80, let n := frame.toNat
      bits n 64 16 = 0xAAAA → bits n 56 8 = 0xD5 → crc8 (msbBits (bits n 8 48) 48) 0 = bits n 0 8 → bits n 16 8 ≠ 0 → s.rd .weirPaceSrc = 0 →
      Does (.paceFrame frame) s (fun t => t.pow.cycleNo = bits n 40 16 ∧ t.pow.slotCount = bits n 32 8 + 1 ∧ t.pow.slotBase = bits n 24 8 ∧ t.pow.slotWidth = bits n 16 8
        ∧ t.pow.holdAll = n.testBit 8 ∧ t.pow.paceMark = true ∧ t.rd .weirSrcInUse = 0 ∧ t.cores = s.cores
        ∧ t.reg .weirSlotNow 0 0 = (bits n 24 8 + s.chip * s.rd .weirStride + s.rd .weirOffset) % (bits n 32 8 + 1)))
    ∧ (∀ reach, s.rd .weirPaceSrc = 0 → s.rd .weirSrcInUse = 0 → Does (.paceLossTimeout reach) s (fun t => t.rd .weirPaceLost = 1
        ∧ t.rd .weirSrcInUse = (if reach then 1 else 2) ∧ RegsBut s t (fun f _ _ => f = .weirPaceLost ∨ f = .weirSrcInUse) ∧ t.pow = { s.pow with masters := [] }))
    ∧ (∀ reach, s.rd .weirPaceSrc = 1 ∨ s.rd .weirSrcInUse = 1 → Does (.paceLossTimeout reach) s (fun t => t.rd .weirPaceLost = 1 ∧ t.rd .weirSrcInUse = 2
        ∧ t.pow = { s.pow with masters := [] }))
    ∧ (∀ k m, s.arrival .paceTime k = some m → s.rd .weirMaster = 0 → (s.rd .weirPaceSrc = 1 ∨ s.rd .weirSrcInUse = 1) →
      (∀ c ∈ s.pow.heardBefore m.srcChip, m.srcChip ≤ c) → Does (.paceTime k) s (fun t => t.pow.cycleNo = m.tag ∧ t.pow.slotCount = m.addr + 1 ∧ t.pow.slotBase = m.arg ∧ t.pow.slotWidth = max 1 m.len
        ∧ t.pow.holdAll = decide (m.code % 2 = 1) ∧ t.pow.paceMark = true ∧ t.rd .weirSrcInUse = 1 ∧ t.net = s.net.eraseIdx k
        ∧ RegsBut s t (fun f _ _ => f = .weirSrcInUse ∨ f = .weirSlotNow ∨ f = .weirMultiMaster)))
    ∧ (∀ k m c, s.arrival .paceTime k = some m → s.rd .weirMaster = 0 → c ∈ s.pow.heardBefore m.srcChip → c < m.srcChip →
      Does (.paceTime k) s (fun t => t.rd .weirMultiMaster = 1 ∧ t.pow = { s.pow with masters := s.pow.heardBefore m.srcChip ++ [m.srcChip] }
        ∧ RegsBut s t (fun f _ _ => f = .weirMultiMaster)))
    ∧ (∀ k m c, s.arrival .paceTime k = some m → c ∈ s.pow.heardBefore m.srcChip → c ≠ m.srcChip → Does (.paceTime k) s (fun t => t.rd .weirMultiMaster = 1 ∧ m.srcChip ∈ t.pow.masters))
    ∧ (s.rd .weirPaceSrc = 2 → s.rd .weirMaster = 0 → Does .localPacingCycle s (fun t => t.pow.cycleNo = (s.pow.cycleNo + 1) % 65536 ∧ t.pow.holdAll = false
        ∧ t.pow.paceMark = true ∧ t.rd .weirSrcInUse = 2 ∧ t.net = s.net))
    ∧ (s.rd .weirMaster = 1 → Does .localPacingCycle s (fun t => ∃ l : List Msg, t.net = s.net ++ l
        ∧ l.map (fun m => m.dstChip) = (List.range s.chips).filter (fun c => decide (c ≠ s.chip))
        ∧ ∀ m ∈ l, m.op = .paceTime ∧ m.tag = (s.pow.cycleNo + 1) % 65536 ∧ m.addr = s.pow.slotCount - 1 ∧ m.arg = s.pow.slotBase ∧ m.len = s.pow.slotWidth))
    ∧ (∀ c, s.rd .weirThrottleC ≤ c → Does (.thermalThrottle c) s (fun t => t.pow.thermCap4 = some (s.pow.thermCap4.getD s.pow.p4) ∧ t.env.tempC = c ∧ t.regs = s.regs))
    ∧ (∀ c, c < s.rd .weirThrottleC - 3 → Does (.thermalThrottle c) s (fun t => t.pow.thermCap4 = none ∧ t.env.tempC = c ∧ t.regs = s.regs))
    ∧ (∀ c, s.rd .weirThrottleC - 3 ≤ c → c < s.rd .weirThrottleC → Does (.thermalThrottle c) s (fun t => t.pow = s.pow ∧ t.env.tempC = c ∧ t.regs = s.regs))
    ∧ (∀ b, Does (.breachEvent b) s (fun t => t.rd .weirBreach = 1 ∧ t.rd .weirRampOpen = 0 ∧ t.pow.closeWait = true
        ∧ RegsBut s t (fun f _ _ => f = .weirBreach ∨ f = .weirRampOpen) ∧ t.cores = s.cores))
    ∧ (∀ c, 110 ≤ c → Does (.thermalTrip110 c) s (fun t => t.rd .weirBreach = 1 ∧ t.env.thermN = true ∧ t.pow.heldMin = true ∧ t.pow.closeWait = true
        ∧ .pin "THERM_N" false ∈ t.out ∧ t.cores = s.cores))
    ∧ (∀ c, s.env.thermN = true → c < 100 → Does (.thermNRelease c) s (fun t => t.env.thermN = false ∧ t.pow.heldMin = false ∧ .pin "THERM_N" true ∈ t.out ∧ t.regs = s.regs))
    ∧ (∀ (r : List Nat) (pinMw trim : Nat), let off := 3 * (s.pow.p4 / 4) < 100 * ((pinMw : Int) - ((s.pow.p4 / 4 : Nat) : Int)).natAbs
      Does (.pmbusRead r pinMw trim) s (fun t => t.env.pmbus = r ∧ t.cores = s.cores
        ∧ (¬ off → t.env.pmbusRun = 0 ∧ t.regs = s.regs)
        ∧ (off → s.env.pmbusRun < 7 → t.env.pmbusRun = s.env.pmbusRun + 1 ∧ t.regs = s.regs)
        ∧ (off → s.env.pmbusRun = 7 → t.env.pmbusRun = 0 ∧ t.rd .rsvPStaticMw = trim % 2 ^ 18)))

/-- R56 to R60, R67, R72, R78, R82, R83, R96, R98, R775 and R908: the close of a request window grants each requesting island at least the lesser of its request and its
MIN, and no more than its request, or its MIN alone while a sensor is hot (R888); ballast goes to cores that may run it, at most the fused maximum each, up to the
first whole unit at or above the floor and never above the ceiling. At the epoch boundary an island that has received its grant adopts it with its
ballast, one that has not runs at its minimum grant without any; the account, the epoch and captured values step. The request of an island that has sent none since
reset is the model's choice (log 96), as is the order among equal grants (log 97). -/
def Obligations.EpochsComplete : Prop :=
  ∀ (s : State),
    (s.pow.closed = false → Does .requestWindowClose s (fun t => t.pow.closed = true ∧ t.pow.recv = [] ∧ t.cores = s.cores ∧ t.mem = s.mem
      ∧ t.pow.epoch = s.pow.epoch ∧ t.pow.p4 = s.pow.p4 ∧ t.pow.grant = s.pow.grant ∧ t.pow.ballast = s.pow.ballast
      ∧ t.pow.statMw = toward s.pow.statMw (s.rd .rsvPStaticMw) 4
      ∧ (∀ i, i < 237 → s.requesting i = true →
          (s.pow.heldMin = false → min (s.want i) (s.minGrant i) ≤ tabGet 0 i t.pow.grantNext ∧ tabGet 0 i t.pow.grantNext ≤ s.want i)
          ∧ (s.pow.heldMin = true → tabGet 0 i t.pow.grantNext = s.minGrant i))
      ∧ (∀ u, tabGet 0 u t.pow.ballNext ≤ s.rd .kprBallastMax
          ∧ (tabGet 0 u t.pow.ballNext ≠ 0 → u < 128 ∧ s.ballastable u = true ∧ t.pow.p4Next ≤ t.pow.ceil4))
      ∧ (s.pow.heldMin = false → s.unit4 ≠ 0 → t.pow.short = false → t.pow.floor4 ≤ t.pow.p4Next ∨ t.pow.ceil4 < t.pow.p4Next + s.unit4)
      ∧ (t.pow.short = true → t.rd .weirShortfall = 1)
      ∧ RegsBut s t (fun f _ _ => f = .weirShortfall ∨ f = .weirPolicyLoss ∨ f ∈ ([.rsvLossCode, .rsvLossPartition, .rsvLossPartValid, .rsvLossCount] : List Fld))))
    ∧ (∀ ok, s.pow.closed = true → s.capt = [] → s.rd .kprCommitGo = 0 →
      Does (.epochBoundary ok) s (fun t => t.pow.epoch = s.pow.epoch + 1 ∧ t.pow.p4 = s.pow.p4Next ∧ t.pow.closed = false ∧ t.pow.recv = []
        ∧ t.pow.meters = [] ∧ (∀ u, t.core u = { s.core u with trace := (t.core u).trace })
        ∧ t.rd .rsvPeakW = s.rd .rsvPeakW ∧ t.rd .rsvSustainW = s.rd .rsvSustainW
        ∧ t.pow.account = min (((s.pow.account : Int) + (4000 * s.rd .rsvSustainW : Int) - (s.pow.p4 : Int)).toNat) (s.rd .rsvDepth * 200000000)
        ∧ (∀ i, i < 237 → s.requesting i = true →
            (i ∉ s.pow.recv → tabGet 0 i t.pow.grant = s.minGrant i ∧ tabGet 0 i t.pow.ballast = 0 ∧ (i ∉ s.pow.granted → tabGet 0 i t.pow.level = 0))
            ∧ (i ∈ s.pow.recv → tabGet 0 i t.pow.grant = tabGet 0 i s.pow.grantNext
                ∧ tabGet 0 i t.pow.ballast = if s.ballastable i then tabGet 0 i s.pow.ballNext else 0))))
    ∧ (∀ ok v, s.pow.closed = true → s.rd .kprCommitGo = 1 → s.capt = [(Fld.key .rsvPeakW 0 0, v)] → v < 2048 →
      Does (.epochBoundary ok) s (fun t => t.rd .rsvPeakW = v ∧ t.capt = [] ∧ t.rd .kprCommitGo = 0 ∧ t.env.intSticky.testBit 9 = true
        ∧ t.rd .kprCommitEpoch = (s.pow.epoch + 1) % 2 ^ 32))

/-- R50, R51, R77, R332, R333, R765 to R772, R845, R896 and R904: requests for RUN, STANDBY and OFF, their ends, and the power states of cores; an idle core enters
the state asked for, one that ballast holds stays; STANDBY and OFF wait until power is within 120 W of the STANDBY level (that level: log 104); a request reaches a C1 core, and one for a core in C2 or C3, or fenced, is lost with an event. -/
def Obligations.PowerStatesComplete : Prop :=
  ∀ (s : State),
    (s.regAsks 2 = true → s.rd .kprPstateState ≠ 2 →
      (s.idleAll = true → s.env.offIn = false →
        (s.nearStandby = true → Does (.standbyRequest .register) s (fun t => t.rd .kprPstateState = 2 ∧ t.env.selfRefresh = true ∧ t.env.reqNew = false
          ∧ t.rd .weirBreach = 1 ∧ t.cores = s.cores ∧ t.mem = s.mem))
        ∧ (s.nearStandby = false → exec (.standbyRequest .register) s = .next ({ s with env := { s.env with reqNew := false, standbyIn := true } } : State).settle))
      ∧ (s.idleAll = false ∨ s.env.offIn = true → Does (.standbyRequest .register) s (fun t => t.rd .kprRefused = 1 ∧ t.rd .kprPstateState = s.rd .kprPstateState ∧ t.env.reqNew = false ∧ t.cores = s.cores)))
    ∧ (4 ≤ s.rd .kprStep → s.rd .kprReady = 0 → exec (.standbyRequest .mctp) s = .next (s.emit (.mctp 3 1 [])).settle)
    ∧ (4 ≤ s.rd .kprStep → s.rd .kprReady = 1 → s.rd .kprPstateState ≠ 2 → s.idleAll = false →
      Does (.standbyRequest .mctp) s (fun t => .mctp 3 2 [] ∈ t.out ∧ t.rd .kprRefused = 1 ∧ t.rd .kprPstateState = s.rd .kprPstateState))
    ∧ (s.regAsks 0 = true → s.rd .kprPstateState = 2 → s.env.off = false →
      exec (.runRequest .register) s = .next ({ s with env := { s.env with reqNew := false, runWait := true } } : State).settle)
    ∧ (s.regAsks 0 = true → s.rd .kprPstateState ≠ 2 → Does (.runRequest .register) s (fun t => t.env.standbyIn = false ∧ t.env.reqNew = false
        ∧ t.regs = s.regs ∧ t.cores = s.cores))
    ∧ (∀ pid, s.wakeChip pid 0x12 = true ∨ s.wakeChip pid 0x10 = true → exec (.runRequest (.packet pid)) s = .next ({ s with env := { s.env with runWait := true } } : State).settle)
    ∧ (s.env.runWait = true → s.rd .kprPstateState = 2 → s.env.off = false → s.inSlotStart = true →
      Does .standbyExit s (fun t => t.rd .kprPstateState = 0 ∧ t.env.selfRefresh = false ∧ t.env.runWait = false ∧ t.rd .weirBreach = 1 ∧ t.cores = s.cores ∧ t.mem = s.mem))
    ∧ (s.env.offIn = false → s.env.off = false → s.regAsks 3 = true → Does (.offRequest .register) s (fun t => t.env.offIn = true ∧ t.env.reqNew = false
        ∧ ∀ p, p < 16 → t.reg .partState 0 p = if s.reg .partState 0 p = 1 then 2 else s.reg .partState 0 p))
    ∧ (∀ src, s.env.offIn = true → s.partsDown = true →
      let held := (List.range 128).any (fun u => !(s.fenced u) && decide ((s.core u).cstate < 2) && decide (tabGet 0 u s.pow.ballast ≠ 0))
      (held = true → Does (.offRequest src) s (fun t => t.rd .weirPolicyLoss = 1 ∧ t.rd .rsvLossCode = 3 ∧ t.env = { s.env with intLast := t.env.intLast } ∧ t.cores = s.cores))
      ∧ (held = false → s.rd .kprPstateState ≠ 2 → s.nearStandby = false → exec (.offRequest src) s = .next s)
      ∧ (held = false → s.rd .kprPstateState = 2 ∨ s.nearStandby = true → Does (.offRequest src) s (fun t => t.env.off = true ∧ t.env.offIn = false ∧ t.rd .kprOffReady = 1 ∧ t.rd .kprPstateState = 2
        ∧ (∀ l, l < 24 → t.reg .linkHold 0 l = 1 ∧ t.reg .linkState 0 l = 4) ∧ (∀ u, u < 128 → s.fenced u = false → 2 ≤ (t.core u).cstate) ∧ t.rd .weirBreach = 1 ∧ .mctp 7 0 [] ∈ t.out)))
    ∧ (∀ (u : CoreId) st, (s.core u).cReq = some st → s.fenced u = false →
      (st ≤ (s.core u).cstate → exec (.cstateEntry u) s = .next (s.setCore u { s.core u with cReq := none }).settle)
      ∧ ((s.core u).cstate < st → st ≤ 3 → (s.core u).idle = true →
        (u.val < 128 → tabGet 0 u.val s.pow.ballast = 0 → Does (.cstateEntry u) s (fun t => (t.core u).cstate = st ∧ (t.core u).cReq = none ∧ CoresBut s t u
          ∧ (st = 2 → ∀ p, p < 8 → t.pairIs u p = if s.pairIs u p = 3 then 1 else s.pairIs u p) ∧ (st = 3 → ∀ p, p < 8 → t.pairIs u p = 0)
          ∧ (t.core u).pstore = (s.core u).pstore))
        ∧ (u.val < 128 → tabGet 0 u.val s.pow.ballast ≠ 0 → Does (.cstateEntry u) s (fun t => t.rd .weirPolicyLoss = 1 ∧ t.rd .rsvLossCode = 3 ∧ t.cores = s.cores))
        ∧ (u.val = 128 → s.kb.ballast = 0 → Does (.cstateEntry u) s (fun t => (t.core u).cstate = st ∧ .kbStat (2 + st * 16) ∈ t.out ∧ CoresBut s t u))))
    ∧ (∀ u : CoreId, (s.core u).cstate = 1 → s.fenced u = false →
      exec (.islandWake u) s = .next (s.setCore u { s.core u with cstate := 0, cReq := none }).settle)
    ∧ (∀ (u : CoreId) k m, u.val < 128 → s.arrival m.op k = some m → m.coreOf = u.val → s.islandOff u = true →
      (m.op ∈ [MsgOp.credit, .flush, .rewrite] → Does (.islandOff u k) s (fun t => t.net = s.net.eraseIdx k ∧ (t.rd .kprGstatus).testBit Gs.islandOff = true ∧ t.cores = s.cores))
      ∧ (m.op = .item → Does (.islandOff u k) s (fun t => (t.rd .kprGstatus).testBit Gs.islandOff = true ∧ t.cores = s.cores
          ∧ ∃ a, t.net = s.net.eraseIdx k ++ [a] ∧ a.op = .credit ∧ a.dstChip = m.srcChip ∧ a.dst = m.src ∧ a.dsub = m.sub ∧ a.arg = cellsOf (m.data.length / 8))))

/-- R696, R697, R701 to R707, R794 and Table 15-5: a packet at a ring's head is fetched, one of a bad LENGTH completes with PKT_BAD, a failed read sets FETCH_ERR; a held status
goes to the completion ring, whose vector covers it; a full ring stalls; apertures reach memory, the errors that a read meets in device memory counted and its lines poisoned first (R488, R489); NOP and QUERY complete. -/
def Obligations.HostCommandsComplete : Prop :=
  ∀ (s : State) (fn : FnId) (r : RingId),
    let f := fn.val
    let size := 2 ^ s.reg .cmdSqSizeLog2 f r
    let head := s.reg .cmdSqHead f r
    let avail := (s.reg .cmdSqTail f r + size - head) % size
    let takes (m : State) (c : Instr) (x : Bytes) : Prop :=
      let len := field x 4 2
      let n := ceilDiv len 64
      (len = 0 ∨ len % 16 ≠ 0 ∨ 4096 < len ∨ avail < n →
        Does c s (fun t => t.reg .cmdSqHead f r = (head + 1) % size ∧ t.host.packets = s.host.packets ∧ t.cores = s.cores ∧ t.mem = m.mem
          ∧ ∃ y ∈ (t.cq f (s.reg .cmdSqCq f r)).held, y.status = St.pktBad ∧ y.fn = f ∧ y.ring = r.val))
      ∧ (0 < len → len % 16 = 0 → len ≤ 4096 → n ≤ avail → (∀ y ∈ s.host.packets, y.pid ≠ s.host.nextPid) →
          (∀ y ∈ s.host.packets, y.fn = f → y.ring = r.val → y.started = true) →
          let p : Packet := { pid := s.host.nextPid, fn := f, ring := r, bytes := sliceBytes x 0 len, started := true }
          p.fence = false → p.check = 0 →
          Does c s (fun t => t.reg .cmdSqHead f r = (head + n) % size ∧ t.host.packets = s.host.packets ++ [p]
            ∧ t.host.nextPid = s.host.nextPid + 1 ∧ t.cores = s.cores ∧ t.mem = m.mem))
    (s.reg .cmdSqEn f r = 1 → avail ≠ 0 → s.cqFull f (s.reg .cmdSqCq f r) = false → s.reg .cmdSqSizeLog2 f r ≤ 16 →
      (s.reg .cmdSqLoc f r = 0 → ∀ ecc,
        (Does (.packetFetch fn r ⟨none, ecc⟩) s (fun t => t.reg .fnFetchErr f 0 = 1 ∧ RegsBut s t (fun g i _ => g = .fnFetchErr ∧ i = f) ∧ t.host = s.host ∧ t.cores = s.cores))
        ∧ ∀ b : Bytes, takes s (.packetFetch fn r ⟨(some b), ecc⟩) (sliceBytes b 0 (64 * min avail 64)))
      ∧ (s.reg .cmdSqLoc f r = 1 → ∀ (b : Option Bytes) ecc,
        let n := min avail (max 1 (min 64 (ceilDiv (field (s.slotRead f r head).1 4 2) 64)))
        let m := (List.range n).foldl (fun (m : State) i => m.memErrs f (m.slotAddr f r (head + i)) 64 ecc) s
        (∀ i, i < n → s.slotClear f r (head + i) = true) →
        ((m.slotsRead f r n).2 = 0 → takes m (.packetFetch fn r ⟨b, ecc⟩) (m.slotsRead f r n).1)
        ∧ ((m.slotsRead f r n).2 ≠ 0 → Does (.packetFetch fn r ⟨b, ecc⟩) s (fun t => t.reg .fnFetchErr f 0 = 1 ∧ t.host = s.host ∧ t.cores = s.cores ∧ t.mem = m.mem))))
    ∧ (∀ y rest, (s.cq f r).held = y :: rest → s.reg .cmdCqEn f r = 1 → (s.cq f r).full = false → s.reg .cmdCqLoc f r = 0 →
      let csize := 2 ^ s.reg .cmdCqSizeLog2 f r
      let tail := s.reg .cmdCqTail f r
      Does (.statusWrite fn r) s (fun t => (t.cq f r).held = rest ∧ t.reg .cmdCqTail f r = (tail + 1) % 65536
        ∧ t.reg .cmdCqPhase f r = (if (tail + 1) % 65536 % csize = 0 then 1 - s.reg .cmdCqPhase f r else s.reg .cmdCqPhase f r)
        ∧ .hostWrite (64 * s.reg .cmdCqBase f r + 32 * (tail % csize)) (s.statusBytes y (s.reg .cmdCqPhase f r)) false ∈ t.out
        ∧ (s.reg .cmdCqCoalN f r ≤ (s.cq f r).count + 1 → .msix f (s.reg .cmdCqVector f r) ∈ t.out ∧ (t.cq f r).count = 0) ∧ t.cores = s.cores ∧ t.mem = s.mem))
    ∧ (∀ y rest, (s.cq f r).held = y :: rest → s.reg .cmdCqEn f r = 1 → (s.cq f r).full = false → s.reg .cmdCqLoc f r = 1 →
      s.canAccess Cls.mgmt f f (64 * s.reg .cmdCqBase f r + 32 * (s.reg .cmdCqTail f r % 2 ^ s.reg .cmdCqSizeLog2 f r)) 32 = true →
      Does (.statusWrite fn r) s (fun t => (t.cq f r).held = rest ∧ t.reg .cmdCqTail f r = (s.reg .cmdCqTail f r + 1) % 65536 ∧ t.cores = s.cores))
    ∧ ((s.cq f r).count ≠ 0 → Does (.coalTimer fn r) s (fun t => (t.cq f r).count = 0 ∧ .msix f (s.reg .cmdCqVector f r) ∈ t.out ∧ t.regs = s.regs ∧ t.cores = s.cores))
    ∧ (s.cqFull f r = true → Does (.cqStallTimeout fn r) s (fun t => (t.reg .fnCqStall f 0).testBit r = true ∧ RegsBut s t (fun g i _ => g = .fnCqStall ∧ i = f) ∧ t.cores = s.cores))
    ∧ (∀ addr n pa ecc, s.apertureAddr f addr n = some pa → s.canAccess Cls.host 0 f pa n = true →
      let m := s.memErrs f pa n ecc
      Does (.apertureRead fn addr ⟨n, ecc⟩) s (fun t => t.mem = m.mem ∧ t.cores = s.cores
        ∧ .apertureData f addr ((linesOf pa n).flatMap (fun l => if (s.xlate f l.1 false).isSome then sliceBytes (m.readPa f pa n).1 l.2.2 l.2.1 else List.replicate l.2.1 0xFF))
            (m.readPa f pa n).2.1 ∈ t.out
        ∧ (f < 16 → (∃ l ∈ linesOf pa n, s.xlate f l.1 false = none) → t.reg .partXlate 0 f = 1)))
    ∧ (∀ addr data pa da, s.apertureAddr f addr data.length = some pa → s.canAccess Cls.host 0 f pa data.length = true → pa % 64 + data.length ≤ 64 →
      s.xlate f pa true = some da → inControl da = false →
      Does (.apertureWrite fn addr data false) s (fun t => t.mem.reads da data.length = data ∧ (∀ b, b < da ∨ da + data.length ≤ b → t.mem.byte b = s.mem.byte b) ∧ t.cores = s.cores)
      ∧ Does (.apertureWrite fn addr data true) s (fun t => t.mem.reads da data.length = data ∧ da / 64 ∈ t.mem.poison ∧ t.cores = s.cores))
    ∧ (∀ pid k, s.ready pid 0 = some k → Does (.packetNop pid) s (fun t => Posted s t k 0 ∧ OnlyHost s t))
    ∧ (∀ c sel pid k, (c, sel) ∈ ([(.queryPartition pid, 0), (.queryCores pid, 1), (.queryLinks pid, 2), (.queryTopology pid, 3)] : List (Instr × Nat)) →
      s.ready pid 2 = some k → k.get 0x10 1 = sel → Does c s (fun t => Posted s t k 0 ∧ OnlyHost s t))
    ∧ (∀ pid k, s.ready pid 2 = some k → k.get 0x10 1 = 4 →
      Does (.queryErrors pid) s (fun t => Posted s t k 0 ∧ t.cores = s.cores ∧ t.regs = s.regs ∧ t.mem = s.mem ∧ t.errs = s.errs
        ∧ ((∀ x ∈ s.errs, x.ord < tabGet 0 k.fn s.host.queried ∨ (k.fn ≠ 16 ∧ x.part ≠ some k.fn)) → tabGet 0 k.fn t.host.queried = s.errOrd)))

/-- R725, R726, R730, R734 to R736, R756, R758, R766 and R771: the packets and events of a partition's life, from FREE through ACTIVE, STOPPING, STOPPED and SCRUBBING back to
FREE, with the packets' statuses, a core that runs ballast keeping it STOPPING (Table 02-4 code 0x3); PART_MAP writes and clears the page's entry. -/
def Obligations.PartitionsComplete : Prop :=
  ∀ (s : State) (pid : Nat),
    (∀ base, s.wakeChip pid 0x10 = true → exec (.partCreate pid base) s = .next ({ s with env := { s.env with runWait := true } } : State).settle)
    ∧ (∀ k base, s.wakeChip pid 0x10 = false → s.ready pid 0x10 = some k → k.fn < 17 → k.ring < 4 →
      let p := k.part
      (s.reg .partState 0 p ≠ 0 → Does (.partCreate pid base) s (fun t => Posted s t k St.partBad ∧ OnlyHost s t))
      ∧ (s.reg .partState 0 p = 0 → (s.env.keptMem && !s.env.fillStarted) = true ∨ s.createRes p k = true →
        Does (.partCreate pid base) s (fun t => Posted s t k St.partRes ∧ OnlyHost s t))
      ∧ (s.reg .partState 0 p = 0 → (s.env.keptMem && !s.env.fillStarted) = false → s.createRes p k = false → s.winsFilled k = true → s.tableOk p base = true →
        Does (.partCreate pid base) s (fun t => Posted s t k 0 ∧ t.reg .partState 0 p = 1 ∧ t.reg .fnPartState p 0 = 1
          ∧ (∀ x ∈ ([(.partQuads, k.get 0x10 4), (.partFcap, k.get 0x15 1), (.rsvShareWeight, k.get 0x14 1), (.slcPartBase, k.get 0x16 2), (.slcPartSize, k.get 0x18 4),
              (.slcPartFlight, k.get 0x1C 2), (.slcPartEn, 1), (.partLinkqReq, bits (k.get 0x20 4) 0 5), (.partLinkqSluice, bits (k.get 0x20 4) 5 5),
              (.partLinkqLedger, bits (k.get 0x20 4) 10 5), (.partLinkqStream, bits (k.get 0x20 4) 15 5), (.partXlateBase, base / 8192), (.partXlateEn, 1)] : List (Fld × Nat)),
            t.reg x.1 0 p = x.2 % 2 ^ x.1.spec.w)
          ∧ (∀ w, w < 8 → t.reg .winV 0 (8 * p + w) = if w < k.wins.length then 1 else 0)
          ∧ (∀ e, e < 4 → (k.get 0x24 1).testBit e = true → t.reg .towRingEn e p = 1 ∧ t.reg .towRingTaken e p = 0))))
    ∧ (∀ k (map : Bool) t2, let c : Instr := if map then .partMap pid else .partUnmap pid
      s.ready pid 0x14 = some k → k.fn < 17 → k.ring < 4 → k.get 0x10 1 = (if map then 0 else 1) →
      let p := k.part
      let pa := k.get 0x18 8
      let da := k.get 0x20 8
      (s.reg .partState 0 p = 0 ∨ s.reg .partState 0 p = 4 ∨ pa % 2 ^ 21 ≠ 0 → Does c s (fun t => Posted s t k St.partRes ∧ OnlyHost s t))
      ∧ (s.reg .partState 0 p = 1 → pa % 2 ^ 21 = 0 → pa + 2 ^ 21 ≤ 2 ^ 40 → k.get 0x28 4 = 1 → (map = true → da % 2 ^ 21 = 0 ∧ s.inWindow p da = true) →
        s.moving p pa (if map then da else 2 ^ 50) = false → (∀ x, s.walk p pa = some x → s.pageBusy x.1 = false) →
        (let e := s.ent (s.l1Base p + 8 * bits pa 30 10); e.testBit 0 = true ∧ e.testBit 1 = false ∧ t2 = 4096 * bits e 12 28) →
        Does c s (fun t => Posted s t k 0 ∧ t.cores = s.cores
          ∧ t.mem.reads (t2 + 8 * bits pa 21 9) 8 = toBytes 8 (if map then 1 + 4 * b2n ((k.get 0x11 1).testBit 0) + da / 2 ^ 21 * 2 ^ 21 else 0))))
    ∧ (∀ k, s.ready pid 0x11 = some k → k.fn < 17 → k.ring < 4 →
      let p := k.part
      let retain := (k.get 0x10 1).testBit 0
      (s.reg .partState 0 p = 1 → Does (.partStop pid) s (fun t => (t.part p).grace = true ∧ (t.part p).retain = retain ∧ t.reg .partState 0 p = 1
          ∧ t.host.packets = s.host.packets.map (fun x => if x.pid = k.pid then { k with wait := 3 } else x) ∧ t.regs = s.regs ∧ t.cores = s.cores))
      ∧ (s.reg .partState 0 p = 2 → Does (.partStop pid) s (fun t => (t.part p).retain = retain ∧ t.regs = s.regs ∧ t.cores = s.cores
          ∧ t.host.packets = s.host.packets.map (fun x => if x.pid = k.pid then { k with wait := 3 } else x)))
      ∧ (s.reg .partState 0 p = 3 → Does (.partStop pid) s (fun t => Posted s t k 0 ∧ OnlyHost s t))
      ∧ (s.reg .partState 0 p = 0 ∨ s.reg .partState 0 p = 4 → Does (.partStop pid) s (fun t => Posted s t k St.partBad ∧ OnlyHost s t)))
    ∧ (∀ p : PartId,
      ((s.part p).grace = true → s.reg .partState 0 p = 1 → Does (.stoppingStart p) s (fun t => t.reg .partState 0 p = 2 ∧ t.reg .fnPartState p 0 = 2 ∧ (t.part p).grace = false))
      ∧ (s.reg .partState 0 p = 2 → s.coresQuiet p = true → (∃ u ∈ s.coresOf p, s.fenced u = false ∧ tabGet 0 u s.pow.ballast ≠ 0) →
          Does (.stoppingComplete p) s (fun t => t.reg .partState 0 p = 2 ∧ t.rd .weirPolicyLoss = 1 ∧ t.rd .rsvLossCode = 3 ∧ t.cores = s.cores))
      ∧ (s.reg .partState 0 p = 2 → s.coresQuiet p = true → (∀ u ∈ s.coresOf p, s.fenced u = false → tabGet 0 u s.pow.ballast = 0) → Does (.stoppingComplete p) s (fun t => t.reg .partState 0 p = 3 ∧ t.reg .fnPartState p 0 = 3
          ∧ (∀ u ∈ s.coresOf p, s.fenced u = false → (if (s.part p).retain then 2 else 3) ≤ (t.core u).cstate) ∧ (∀ u, u ∉ s.coresOf p → t.core u = s.core u)
          ∧ ∀ k ∈ t.host.packets, ¬ (k.wait = 3 ∧ k.opcode = 0x11 ∧ k.part = p.val)))
      ∧ (s.reg .partState 0 p = 4 → Does (.teardownScrubDone p) s (fun t => t.reg .partState 0 p = 0 ∧ t.reg .fnPartState p 0 = 0 ∧ t.reg .partQuads 0 p = 0 ∧ t.reg .slcPartEn 0 p = 0
          ∧ t.reg .partXlateEn 0 p = 0 ∧ t.reg .partFcap 0 p = 15 ∧ (∀ w, w < 8 → t.reg .winV 0 (8 * p + w) = 0)
          ∧ (∀ u ∈ s.coresOf p, (∀ b, b < 786432 → t.spdByte u b = 0) ∧ (∀ i, t.pword u i = 0 ∧ t.dslot u i = 0 ∧ t.uword u i = 0))
          ∧ (∀ w b, w < 8 → s.reg .winV 0 (8 * p + w) = 1 → s.reg .winBase 0 (8 * p + w) * 2 ^ 21 ≤ b →
              b < (s.reg .winBase 0 (8 * p + w) + s.reg .winPages 0 (8 * p + w) + 1) * 2 ^ 21 → inControl b = false → t.mem.byte b = 0)
          ∧ ∀ k ∈ t.host.packets, ¬ (k.wait = 3 ∧ k.opcode = 0x13 ∧ k.part = p.val))))
    ∧ (s.wakeChip pid 0x12 = true → exec (.partStart pid) s = .next ({ s with env := { s.env with runWait := true } } : State).settle)
    ∧ (∀ k, s.wakeChip pid 0x12 = false → s.ready pid 0x12 = some k → k.fn < 17 → k.ring < 4 →
      let p := k.part
      (s.reg .partState 0 p = 0 ∨ s.reg .partState 0 p = 4 → Does (.partStart pid) s (fun t => Posted s t k St.partBad ∧ OnlyHost s t))
      ∧ (s.reg .partState 0 p = 1 → (s.part p).grace = false → Does (.partStart pid) s (fun t => Posted s t k 0 ∧ OnlyHost s t))
      ∧ (s.reg .partState 0 p = 3 → s.partBusy p = false → Does (.partStart pid) s (fun t => Posted s t k 0 ∧ t.reg .partState 0 p = 1 ∧ t.reg .fnPartState p 0 = 1
          ∧ (∀ u ∈ s.coresOf p, s.fenced u = false → (t.core u).cstate = 0) ∧ (∀ u, u ∉ s.coresOf p → t.core u = s.core u) ∧ t.mem = s.mem)))
    ∧ (∀ k, s.startedPkt pid 0x13 = some k → k.fn < 17 → k.ring < 4 →
      let p := k.part
      (s.reg .partState 0 p = 0 → Does (.partDestroy pid) s (fun t => Posted s t k St.partBad ∧ OnlyHost s t))
      ∧ (s.reg .partState 0 p = 1 → Does (.partDestroy pid) s (fun t => t.reg .partState 0 p = 2 ∧ (t.part p).retain = false))
      ∧ (s.reg .partState 0 p = 3 → Does (.partDestroy pid) s (fun t => t.reg .partState 0 p = 4 ∧ t.cores = s.cores ∧ t.mem = s.mem)))

/-- R710, R711, R542, R554 and R775: COMMIT, POWER_POLICY and BW_POLICY put their valid fields into the pending copies, capture them where they commit, and complete. -/
def Obligations.PolicyPacketsComplete : Prop :=
  ∀ (s : State) (pid : Nat) (k : Packet), k.fn < 17 → k.ring < 4 →
    (s.ready pid 1 = some k → Does (.commit (.packet pid)) s (fun t => Posted s t k 0 ∧ t.rd .kprCommitGo = 1 ∧ t.capt = s.pend ∧ t.pend = s.pend
        ∧ t.rd .kprCommitMerged = (if s.rd .kprCommitGo = 1 then 1 else s.rd .kprCommitMerged) ∧ t.cores = s.cores))
    ∧ (s.ready pid 0x20 = some k →
      let v (b : Nat) : Bool := (k.get 0x10 1).testBit b
      let mask := maskCores (k.get 0x20 16)
      (v 4 = true → k.chip = false → (∃ u ∈ mask, u ∉ s.coresOf k.part) → Does (.powerPolicy pid) s (fun t => Posted s t k St.partBad ∧ OnlyHost s t))
      ∧ ((v 4 = true → k.chip = true ∨ ∀ u ∈ mask, u ∈ s.coresOf k.part) →
        Does (.powerPolicy pid) s (fun t => Posted s t k 0
          ∧ (v 0 = true → t.pending? .rsvPeakW 0 = min (k.get 0x12 2) s.fuses.peakMaxW ∧ t.capt = t.pend ∧ t.rd .kprCommitGo = 1)
          ∧ (v 1 = true → v 0 = false → t.pending? .rsvSustainW 0 = min (k.get 0x14 2) (s.pending? .rsvPeakW 0) ∧ t.capt = t.pend)
          ∧ (v 2 = true → t.pending? .rsvShareWeight k.part = k.get 0x16 1 ∧ t.capt = t.pend) ∧ (v 3 = true → t.pending? .partFcap k.part = k.get 0x17 1 ∧ t.capt = t.pend)
          ∧ (v 0 = false → v 1 = false → v 2 = false → v 3 = false → t.pend = s.pend ∧ t.capt = s.capt)
          ∧ (v 4 = false → t.cores = s.cores)
          ∧ (∀ u ∈ mask, v 4 = true → s.fenced u = false → (s.core u).tasked = false → k.get 0x18 1 ≠ 0 → t.core u = { s.core u with cReq := some (k.get 0x18 1) })
          ∧ (∀ u ∈ mask, v 4 = true → s.fenced u = false → (s.core u).tasked = false → k.get 0x18 1 = 0 → (t.core u).cstate = 0)
          ∧ (∀ u ∈ mask, s.fenced u = true ∨ (s.core u).tasked = true → t.core u = s.core u))))
    ∧ (s.ready pid 0x21 = some k →
      let c := k.get 0x10 1
      c < 8 → Does (.bwPolicy pid) s (fun t => Posted s t k 0 ∧ t.pending? .classMode c = k.get 0x11 1 ∧ t.pending? .classPrio c = k.get 0x12 1
        ∧ t.pending? .classBudget c = k.get 0x14 4 ∧ t.cores = s.cores ∧ t.capt = s.capt
        ∧ (c < 4 → k.get 0x18 1 < k.get 0x19 1 → k.get 0x19 1 < k.get 0x1A 1 →
            t.pending? .classMidAt c = k.get 0x18 1 ∧ t.pending? .classHighAt c = k.get 0x19 1 ∧ t.pending? .classCritAt c = k.get 0x1A 1)
        ∧ (c < 4 → ¬ (k.get 0x18 1 < k.get 0x19 1 ∧ k.get 0x19 1 < k.get 0x1A 1) → (t.rd .kprGstatus).testBit Gs.illegal = true
            ∧ t.pending? .classMidAt c = s.pending? .classMidAt c)))

/-- A SIGNAL(+1) of a DONE sluice outside BARRIER mode that no waiter waits for adds one, stopping at 2^48 − 1 (R567, R712, R718). -/
def Sys2Proof.Claims.Signalled (s t : State) (i : Nat) : Prop :=
  i < 16384 → s.slcDown i = none → cMode (s.slcCtl i) ≠ 2 → (∀ w ∈ s.waiters, w.num ≠ i) → t.slcCount i = min (s.slcCount i + 1) (2 ^ 48 - 1)

/-- A packet has completed with a status entry of these results. -/
def Sys2Proof.Claims.PostedWith (s t : State) (k : Packet) (st num r0 r1 : Nat) : Prop :=
  k.discard = false → k.nocomp = false → ∃ x ∈ (t.cq k.fn (s.reg .cmdSqCq k.fn k.ring)).held,
    x.status = st ∧ x.fn = k.fn ∧ x.ring = k.ring ∧ x.tag = k.htag ∧ x.num = num ∧ x.r0 = r0 ∧ x.r1 = r1

/-- R356, R365, R711, R714 to R720, R734 and R745: a LAUNCH that passes its checks starts each of its cores at the record's program counter with the record's registers and
program; it completes when its last core has ended, after its DONE sluice is signalled, with the status that stands first; TIMEOUT_US and
ABORT halt its cores; one that fails a check, or whose records cannot be read, completes with that status and starts nothing. -/
def Obligations.LaunchesComplete : Prop :=
  ∀ (s : State),
    (∀ pid k ecc, s.ready pid 0x100 = some k → s.launchBad k ≠ 0 → Does (.launch ⟨pid, ecc⟩) s (fun t => Posted s t k (s.launchBad k) ∧ OnlyHost s t))
    ∧ (∀ pid k ecc, s.ready pid 0x100 = some k → s.launchBad k = 0 →
        (∀ x ∈ k.recs, ∀ y ∈ s.recordReads k.part x.2, s.canAccess Cls.mgmt k.part k.part y.1 y.2 = true) →
      let m := s.recordErrs k.part (k.recs.foldl (fun l x => if l.contains x.2 then l else l ++ [x.2]) []) ecc
      let st := firstStatus (k.recs.map (fun x => m.recordBad k.part x.2))
      (st ≠ 0 → Does (.launch ⟨pid, ecc⟩) s (fun t => Posted s t k st ∧ t.cores = s.cores ∧ t.host.launches = s.host.launches ∧ t.mem = m.mem))
      ∧ (st = 0 → Does (.launch ⟨pid, ecc⟩) s (fun t => t.packet pid = some { k with wait := 7 }
        ∧ (∃ l : Launch, t.host.launches = s.host.launches ++ [l] ∧ l.lid = s.host.nextLid ∧ l.pid = k.pid ∧ l.fn = k.fn ∧ l.part = k.part
            ∧ l.cores = maskCores (k.get 0x10 16) ∧ l.doneEn = (k.get 0x32 2).testBit 15 ∧ l.done = bits (k.get 0x32 2) 0 14 ∧ l.timeout = k.get 0x34 4
            ∧ l.fallback = k.get 0x28 8 ∧ l.ended = [] ∧ l.forced = 0)
        ∧ (∀ x ∈ k.recs, let u := x.1; let r := (m.readPa k.part x.2 1024).1
            (t.core u).tasked = true ∧ (t.core u).launch = some s.host.nextLid ∧ t.reg .coreRun u 0 = 1 ∧ t.reg .coreHalted u 0 = 0
            ∧ t.pc u = bits (field r 0x10 2) 0 12 ∧ t.reg .tstatusValid u 0 = 0
            ∧ (∀ n, 0 < n → n < 32 → t.sreg u n = if (field r 0xC 4).testBit n then field r (0x40 + 8 * n) 8 % 2 ^ 64 else 0)
            ∧ (∀ a n, recProg r = some (a, n) → ∀ i, i < (m.readPa k.part a n).1.length / 16 →
                t.pword u i = field (m.readPa k.part a n).1 (16 * i) 16 % 2 ^ 128))
        ∧ (∀ v, v ∉ maskCores (k.get 0x10 16) → (t.core v).tasked = (s.core v).tasked ∧ (t.core v).launch = (s.core v).launch) ∧ t.mem = m.mem)))
    ∧ (∀ lid l k, s.host.launches.find? (fun l => decide (l.lid = lid)) = some l → l.over = true → (l.doneEn = true → s.doneClear l.done = true) →
      s.packet l.pid = some k →
      Does (.launchComplete lid) s (fun t => (∀ y ∈ t.host.launches, y.lid ≠ lid) ∧ (l.doneEn = true → Signalled s t l.done) ∧ t.mem = s.mem
        ∧ (l.forced ≠ 0 → Posted s t k l.forced)
        ∧ (l.forced = 0 → (∀ e ∈ l.ended, e.2.1 = 0) → Posted s t k 0)
        ∧ (∀ u c pc, l.forced = 0 → (u, c, pc) ∈ l.ended → c ≠ 0 → (∀ e ∈ l.ended, e.2.1 ≠ 0 → e = (u, c, pc) ∨ u < e.1) →
            Posted s t k c ∧ PostedWith s t k c l.num (u + 128 + pc * 256) l.maxCyc)))
    ∧ (∀ lid l, s.host.launches.find? (fun l => decide (l.lid = lid)) = some l → l.timeout ≠ 0 → l.over = false →
      Does (.launchTimeout lid) s (fun t =>
        (∀ u ∈ l.cores, (s.core u).launch = some l.lid → (t.core u).stopping = true ∨ (t.core u).tasked = false)
        ∧ (∀ u ∈ l.cores, (s.core u).launch = some l.lid → (s.core u).tasked = true → ∀ y ∈ t.host.launches, y.lid = lid → forcedRank St.timeout ≤ forcedRank y.forced)
        ∧ (∀ v, v ∉ l.cores → t.core v = s.core v)))
    ∧ (∀ pid k, s.ready pid 0x103 = some k → s.partGone k.part = true → Does (.abort pid) s (fun t => Posted s t k St.partDown ∧ OnlyHost s t))
    ∧ (∀ pid k, s.ready pid 0x103 = some k → s.partGone k.part = false →
      let named (l : Launch) : Bool := decide (l.fn = k.fn) && !l.over && (match s.packet l.pid with
        | some x => decide (x.htag = k.get 0x10 2)
        | none => false)
      (s.host.launches.find? named = none →
        Does (.abort pid) s (fun t => Posted s t k 0 ∧ OnlyHost s t ∧ (k.discard = false → k.nocomp = false →
          ∃ x ∈ (t.cq k.fn (s.reg .cmdSqCq k.fn k.ring)).held, x.tag = k.htag ∧ x.status = 0 ∧ x.r0 = 0)))
      ∧ (∀ l, s.host.launches.find? named = some l →
        Does (.abort pid) s (fun t => Posted s t k 0
          ∧ (k.discard = false → k.nocomp = false → ∃ x ∈ (t.cq k.fn (s.reg .cmdSqCq k.fn k.ring)).held, x.tag = k.htag ∧ x.status = 0 ∧ x.r0 = 1)
          ∧ (∀ u ∈ l.cores, (s.core u).launch = some l.lid → (t.core u).stopping = true ∨ (t.core u).tasked = false)
          ∧ (∀ v, v ∉ l.cores → t.core v = s.core v))))

/-- R563 to R565, R712, R713, R722 to R724 and R734: SLUICE_OP sends its operation to the sluice's bank; QUEUE_KICK sends its item where its entry's credits cover it; COPY moves its
bytes and then signals DONE, an address of a chip that is not there completing it with MEM_NOCHIP (R484); MIGRATE starts the lower free mover, is rejected while both are busy (R514), and completes at the switch; TOW_LOAD fills the partition's region of the engines'
program stores; each check that fails completes the packet with its status and does nothing else. -/
def Obligations.WorkPacketsComplete : Prop :=
  ∀ (s : State) (pid : Nat) (k : Packet),
    (s.ready pid 0x101 = some k →
      let num := bits (k.get 0x11 2) 0 14
      let remote := (k.get 0x10 1).testBit 7
      let op := bits (k.get 0x10 1) 0 3
      let tag := s.nextTag % 32768
      (s.partGone k.part = true → Does (.sluiceOp pid) s (fun t => Posted s t k St.partDown ∧ OnlyHost s t))
      ∧ (s.partGone k.part = false → remote = false → s.inSluices k.part num = false → Does (.sluiceOp pid) s (fun t => Posted s t k St.slcBad ∧ OnlyHost s t))
      ∧ (s.partGone k.part = false → (remote = true ∨ s.inSluices k.part num = true) →
        Does (.sluiceOp pid) s (fun t => t.packet pid = some { k with wait := 5, tag := tag }
          ∧ (∃ m, t.net = s.net ++ [m] ∧ m.op = (if op = 1 then .waiter else .sop) ∧ m.srcChip = s.chip ∧ m.src = 184 ∧ m.dstChip = (if remote then k.get 0x13 1 else s.chip)
              ∧ m.dst = bankIsland num ∧ m.addr = num ∧ m.code = op ∧ m.arg = (if op = 1 then k.get 0x18 8 % 2 ^ 48 else k.get 0x18 8) ∧ m.tag = tag
              ∧ m.part = k.part ∧ m.flight = s.flightOf k.part)
          ∧ t.regs = s.regs ∧ t.cores = s.cores ∧ t.mem = s.mem)))
    ∧ (s.startedPkt pid 0x102 = some k →
      let e := bits (k.get 0x10 1) 0 4
      let words := bits (k.get 0x11 1) 0 4 + 1
      let cr := s.reg .hqsCredits k.part e
      (s.partGone k.part = true → Does (.queueKick pid) s (fun t => Posted s t k St.partDown ∧ OnlyHost s t))
      ∧ (s.partGone k.part = false → s.reg .hqsEn k.part e = 0 → Does (.queueKick pid) s (fun t => Posted s t k St.queueBad ∧ OnlyHost s t))
      ∧ (s.partGone k.part = false → s.reg .hqsEn k.part e = 1 → cr < cellsOf words → (k.get 0x10 1).testBit 4 = false →
          Does (.queueKick pid) s (fun t => Posted s t k St.qFull ∧ OnlyHost s t))
      ∧ (s.partGone k.part = false → s.reg .hqsEn k.part e = 1 → cr < cellsOf words → (k.get 0x10 1).testBit 4 = true → k.wait ≠ 4 →
          exec (.queueKick pid) s = .next (s.setPacket { k with wait := 4 }).settle)
      ∧ (s.partGone k.part = false → s.reg .hqsEn k.part e = 1 → cellsOf words ≤ cr →
        Does (.queueKick pid) s (fun t => t.reg .hqsCredits k.part e = cr - cellsOf words
          ∧ (∃ m, t.net = s.net ++ [m] ∧ m.op = .item ∧ m.src = 184 ∧ m.sub = 16 * k.part + e ∧ m.dstChip = s.chip ∧ m.dst = s.reg .hqsTcore k.part e
              ∧ m.dsub = s.reg .hqsTq k.part e ∧ m.flight = s.reg .hqsFlight k.part e ∧ m.data = markItem (sliceBytes k.bytes 0x20 (8 * words)))
          ∧ Posted s t k 0 ∧ RegsBut s t (fun f i j => f = .hqsCredits ∧ i = k.part ∧ j = e) ∧ t.cores = s.cores ∧ t.mem = s.mem)))
    ∧ (∀ host ecc, s.ready pid 0x110 = some k →
      let p := k.space
      let fl := k.get 0x28 1 % 4
      let src := if fl % 2 = 1 then k.get 0x10 8 else s.copyAddr (k.get 0x10 8)
      let dst := if 2 ≤ fl then k.get 0x18 8 else s.copyAddr (k.get 0x18 8)
      let n := k.get 0x20 8
      let m := if fl % 2 = 1 then s else s.memErrs p src n ecc
      let doneEn := (k.get 0x2A 2).testBit 15
      let num := bits (k.get 0x2A 2) 0 14
      let c : Instr := .copy pid ⟨host, ecc⟩
      let absent := (fl % 2 = 0 ∧ s.noChip src = true) ∨ (fl < 2 ∧ s.noChip dst = true)
      let doneOk := doneEn = true → p < 16 → s.inSluices p num = true
      (p < 16 → s.partGone p = true → Does c s (fun t => Posted s t k St.partDown ∧ OnlyHost s t))
      ∧ ((p < 16 → s.partGone p = false) → doneEn = true → p < 16 → s.inSluices p num = false → Does c s (fun t => Posted s t k St.slcBad ∧ OnlyHost s t))
      ∧ ((p < 16 → s.partGone p = false) → doneOk → absent → Does c s (fun t => Posted s t k St.memNochip ∧ OnlyHost s t))
      ∧ ((p < 16 → s.partGone p = false) → doneOk → ¬ absent → (doneEn = true → s.doneClear num = true) →
          (fl % 2 = 0 → s.canAccess Cls.mgmt p p src n = true) → (fl < 2 → s.canAccess Cls.mgmt p p dst n = true) →
        let lands (t : State) (d : Bytes) : Prop := ∀ da, s.xlate p dst true = some da → inControl da = false → dst % 64 + n ≤ 64 →
          t.mem.reads da n = d ∧ ∀ b, b < da ∨ da + n ≤ b → t.mem.byte b = s.mem.byte b
        (fl = 0 → src % 64 + n ≤ 64 → dst % 64 + n ≤ 64 → 0 < n → ∀ sa da, s.xlate p src false = some sa → m.mem.anyPoison sa n = false → s.xlate p dst true = some da →
          Does c s (fun t => lands t (s.memReads sa n) ∧ (inControl da = false → Posted s t k 0 ∧ (doneEn = true → Signalled s t num)) ∧ t.cores = s.cores))
        ∧ (fl ≠ 0 → host = none → Does c s (fun t => Posted s t k St.hostFault ∧ t.mem = m.mem ∧ t.cores = s.cores))
        ∧ (∀ b, host = some b → fl = 1 → n ≤ b.length → 0 < n → dst % 64 + n ≤ 64 → ∀ da, s.xlate p dst true = some da →
          Does c s (fun t => lands t (b.take n) ∧ (inControl da = false → Posted s t k 0 ∧ (doneEn = true → Signalled s t num)) ∧ t.cores = s.cores))
        ∧ (∀ b, host = some b → fl = 2 → src % 64 + n ≤ 64 → 0 < n → ∀ sa, s.xlate p src false = some sa → m.mem.anyPoison sa n = false →
          Does c s (fun t => .hostWrite dst (s.memReads sa n) false ∈ t.out ∧ t.mem = m.mem ∧ Posted s t k 0 ∧ (doneEn = true → Signalled s t num) ∧ t.cores = s.cores))
        ∧ (∀ b, host = some b → fl = 3 → n ≤ b.length →
          Does c s (fun t => .hostWrite dst (b.take n) false ∈ t.out ∧ t.mem = s.mem ∧ Posted s t k 0 ∧ (doneEn = true → Signalled s t num) ∧ t.cores = s.cores))))
    ∧ (∀ choice, s.ready pid 0x111 = some k →
      let pa := k.get 0x10 8
      let da := k.get 0x18 8
      let dst := if da = 0 then choice else da
      let c : Instr := .migrate pid choice
      (s.partGone k.part = true → Does c s (fun t => Posted s t k St.partDown ∧ OnlyHost s t))
      ∧ (s.partGone k.part = false → da = 0 → s.anyFree k.part (k.get 0x20 1) = false → Does c s (fun t => Posted s t k St.partRes ∧ OnlyHost s t))
      ∧ (s.partGone k.part = false → (da = 0 → s.freePage k.part (k.get 0x20 1) choice = true ∧ s.anyFree k.part (k.get 0x20 1) = true) →
        ((2 ^ 40 ≤ pa ∨ 2 ^ 40 ≤ dst ∨ s.moveBad k.part pa dst = true) → Does c s (fun t => Posted s t k St.moveBad ∧ OnlyHost s t))
        ∧ (pa < 2 ^ 40 → dst < 2 ^ 40 → s.moveBad k.part pa dst = false →
          ∀ m : Fin 2, (s.mover m).phase = 0 → (∀ j : Fin 2, j < m → (s.mover j).phase ≠ 0) → s.portOpen Cls.mover m = true →
          Does c s (fun t => t.packet pid = some { k with wait := 6 } ∧ (t.mover m).phase = 1 ∧ (t.mover m).part = k.part ∧ (t.mover m).src = s.pageOf k.part pa
            ∧ (t.mover m).dst = dst ∧ (t.mover m).pa = pa ∧ (t.mover m).pid = some pid ∧ t.reg .moveGo 0 m = 1 ∧ (t.mover (1 - m.val)) = s.mover (1 - m.val)
            ∧ t.mem = s.mem.copyPage (s.pageOf k.part pa) dst ∧ t.cores = s.cores))
        ∧ (pa < 2 ^ 40 → dst < 2 ^ 40 → s.moveBad k.part pa dst = false → (s.mover 0).phase ≠ 0 → (s.mover 1).phase ≠ 0 →
          Does c s (fun t => Posted s t k St.moveBad ∧ OnlyHost s t))))
    ∧ (∀ (m : Fin 2) ecc, (s.mover m).phase = 3 → s.pageBusy (s.mover m).src = false → (s.mover m).pid = some pid → s.packet pid = some k →
      Does (.moveSwitch ⟨m, ecc⟩) s (fun t => (t.mover m).phase = 0 ∧ t.reg .moveGo 0 m = 0 ∧ t.reg .moveDone 0 m = 1 ∧ Posted s t k 0))
    ∧ (∀ ecc, s.ready pid 0x112 = some k →
      let n := k.get 0x12 1 + 1
      let src := k.get 0x18 8
      let m := s.memErrs k.part src (4 * n) ecc
      let d := m.readPa k.part src (4 * n)
      (s.partGone k.part = true → Does (.towLoad ⟨pid, ecc⟩) s (fun t => Posted s t k St.partDown ∧ OnlyHost s t))
      ∧ (s.partGone k.part = false → s.canAccess Cls.mgmt k.part k.part src (4 * n) = true →
        (d.2.2 ≠ 0 → Does (.towLoad ⟨pid, ecc⟩) s (fun t => Posted s t k d.2.2 ∧ t.tows = s.tows ∧ t.mem = m.mem))
        ∧ (d.2.2 = 0 → Does (.towLoad ⟨pid, ecc⟩) s (fun t => Posted s t k 0 ∧ t.mem = m.mem ∧ t.cores = s.cores
            ∧ (∀ e, e < 4 → (k.get 0x10 1).testBit e = true → ∀ i, i < n → t.towWord e (256 * k.part + k.get 0x11 1 + i) = field d.1 (4 * i) 4 % 2 ^ 32)
            ∧ (∀ e w, ((k.get 0x10 1).testBit e = false ∨ w < 256 * k.part + k.get 0x11 1 ∨ 256 * k.part + k.get 0x11 1 + n ≤ w) → t.towWord e w = s.towWord e w)))))

/-- R42, R46, R601 to R605, R614, R617, R637 and R638: a link that is locked and not held trains; an attempt ends UP, or failed, the third in a row FAILED; a pending REPLAY is
repeated and its eighth failure retrains; a link that is lost names its last flit over the other of its pair, which takes its messages; with
neither, their sources are told. -/
def Obligations.LinksTrainAndFail : Prop :=
  ∀ (s : State) (l : LinkId),
    let k := s.link l
    let begins (t : State) : Prop := (s.linkHeld l = true → t.reg .linkState 0 l = 4)
      ∧ (s.linkHeld l = false → s.rd .klkLocked = 1 → t.reg .linkState 0 l = 1 ∧ (t.link l).training = true)
      ∧ (t.link l).retryWait = false ∧ (∀ m, m ≠ l.val → t.link m = s.link m) ∧ RegsBut s t (fun f i j => f = .linkState ∧ i = 0 ∧ j = l.val) ∧ t.cores = s.cores ∧ t.mem = s.mem
    let fails (t : State) : Prop := (2 ≤ k.attempts → t.reg .linkState 0 l = 5 ∧ (t.link l).attempts = 0 ∧ (t.link l).retryWait = false)
      ∧ (k.attempts < 2 → t.reg .linkState 0 l = 0 ∧ (t.link l).attempts = k.attempts + 1 ∧ (t.link l).retryWait = true)
      ∧ (t.link l).training = false ∧ t.cores = s.cores ∧ t.mem = s.mem ∧ t.net = s.net
    ((s.reg .linkState 0 l = 0 ∨ s.reg .linkState 0 l = 4) → s.rd .klkLocked = 1 → k.retryWait = false → Does (.linkTrainingStart l) s begins)
    ∧ (k.retryWait = true → Does (.trainingRetry l) s begins)
    ∧ (∀ info : TrainInfo, k.training = true →
      let low := bits info.locked.toNat 0 4 = 15
      let high := bits info.locked.toNat 4 4 = 15
      (¬ low → ¬ high → Does (.train l info) s fails)
      ∧ ((low ∨ high) → (info.chip.toNat ≠ s.linkPeer l ∨ info.trayLog2 ≠ s.rd .klkTrayLog2) →
        Does (.train l info) s (fun t => fails t ∧ t.reg .linkCableErr 0 l = 1 ∧ t.reg .linkPartner 0 l = info.chip.toNat))
      ∧ ((low ∨ high) → info.chip.toNat = s.linkPeer l → info.trayLog2 = s.rd .klkTrayLog2 →
        Does (.train l info) s (fun t => t.reg .linkState 0 l = 2 ∧ t.reg .linkPartner 0 l = info.chip.toNat ∧ (t.link l).training = false ∧ (t.link l).attempts = 0
          ∧ (low → high → s.reg .linkNarrow 0 l = 0 → info.narrow = false → t.reg .linkWidth 0 l = 0)
          ∧ ((¬ low ∨ ¬ high ∨ s.reg .linkNarrow 0 l = 1 ∨ info.narrow = true) → t.reg .linkWidth 0 l = 1) ∧ t.cores = s.cores ∧ t.mem = s.mem)))
    ∧ (s.linkUp l = true → k.replayOn = true →
      (k.replays < 8 → exec (.replayRepeat l) s = .next ((s.setLink l { k with replays := k.replays + 1 }).emit
          (.linkCtrl l ⟨1, BitVec.ofNat 16 k.rxSeq, 0, BitVec.ofNat 8 l, 0⟩)).settle)
      ∧ (8 ≤ k.replays → Does (.replayRepeat l) s (fun t => t.reg .linkState 0 l = 1 ∧ (t.link l).training = true ∧ (t.link l).fast = true
          ∧ (t.link l).replayOn = false ∧ (t.link l).unacked = k.unacked ∧ t.reg .linkRetrains 0 l = satAdd Fld.linkRetrains.spec.w (s.reg .linkRetrains 0 l) 1
          ∧ t.cores = s.cores ∧ t.mem = s.mem)))
    ∧ (s.linkUp l = true → Does (.linkDown l) s (fun t => t.reg .linkState 0 l = 0 ∧ (t.link l).downWait = true ∧ (t.link l).waiting = [] ∧ (t.link l).unacked = k.unacked
        ∧ t.net = k.waiting.map (fun m => { m with link := 24 }) ++ s.net ∧ t.cores = s.cores ∧ t.mem = s.mem
        ∧ (s.linkUp (pairOf l) = true → .linkCtrl (pairOf l) ⟨3, BitVec.ofNat 16 ((k.rxSeq + 4095) % 4096), 0, BitVec.ofNat 8 l, 0⟩ ∈ t.out)))
    ∧ (∀ rec : CtrlRec, s.linkUp l = true →
      (rec.link.toNat = pairOf l → s.reg .linkState 0 (pairOf l) ≠ 2 →
        Does (.handover l rec) s (fun t => (t.link (pairOf l)).unacked = [] ∧ (t.link (pairOf l)).downWait = false ∧ t.cores = s.cores ∧ t.mem = s.mem
          ∧ ∀ f ∈ (s.link (pairOf l)).unacked, 0 < seqAhead f.1 rec.seq.toNat → seqAhead f.1 rec.seq.toNat ≤ 512 → ∀ m ∈ f.2,
              m ∈ (t.link l).waiting ∨ ∃ x ∈ (t.link l).unacked, m ∈ x.2))
      ∧ ((rec.link.toNat ≠ pairOf l ∨ s.reg .linkState 0 rec.link.toNat = 2) →
        Does (.handover l rec) s (fun t => t.reg .linkViolTotal 0 l = satAdd Fld.linkViolTotal.spec.w (s.reg .linkViolTotal 0 l) 1
          ∧ t.reg .linkViolLast 0 l = Vi.ctrlBad % 2 ^ Fld.linkViolLast.spec.w ∧ t.cores = s.cores ∧ t.mem = s.mem)))
    ∧ (k.downWait = true → s.linkUp l = false → s.linkUp (pairOf l) = false →
      Does (.handoverTimeout l) s (fun t => (t.link l).unacked = [] ∧ (t.link l).downWait = false ∧ t.mem = s.mem ∧ t.cores = s.cores
        ∧ ∀ f ∈ k.unacked, ∀ m ∈ f.2, m.answered = true →
            ∃ a ∈ t.net, a.op = .nack ∧ a.code = 4 ∧ a.dstChip = m.srcChip ∧ a.dst = m.src ∧ a.dsub = m.sub ∧ a.tag = m.tag))

/-- R10, R50, R51, R467, R588, R606 to R616, R622 to R628, R632, R633, R635, R639, R642, R733 and R803: a frame that FEC or CRC rejects asks for a REPLAY and delivers nothing, one whose header is at
fault is counted and dropped (log 112), one in order advances the sequence; records are acted on; a message short of credits quarantines its link; the link switch sends a message to its next hop or
tells its source; a message of a partition goes out within its reserve whatever the others hold, and beyond it while shared slots last; KEEPER and REWRITE
messages reach the Keeper and the queue registers, a core in C1 waking for one and a core that is off answering ISLAND_OFF (the bits of a REWRITE: log 102). -/
def Obligations.LinkTrafficCompletes : Prop :=
  ∀ (s : State),
    (∀ (l : LinkId) (frame : FrameRx) time, s.linkUp l = true →
      let k := s.link l
      let f := sliceBytes frame.flit 0 256
      let asks (t : State) : Prop := (t.link l).rxSeq = k.rxSeq ∧ (t.link l).replayOn = true ∧ t.net = s.net ∧ t.cores = s.cores ∧ t.mem = s.mem
        ∧ (k.replayOn = false → .linkCtrl l ⟨1, BitVec.ofNat 16 k.rxSeq, 0, BitVec.ofNat 8 l, 0⟩ ∈ t.out)
      ((8 < frame.err0 ∨ 8 < frame.err1) → Does (.flitReceive l frame time) s (fun t => asks t
          ∧ t.reg .linkFecUncorr 0 l = satAdd Fld.linkFecUncorr.spec.w (s.reg .linkFecUncorr 0 l) 1))
      ∧ (frame.err0 ≤ 8 → frame.err1 ≤ 8 →
        (flitCrc f ≠ field f 12 4 → Does (.flitReceive l frame time) s (fun t => asks t
          ∧ t.reg .linkCrcFail 0 l = satAdd Fld.linkCrcFail.spec.w (s.reg .linkCrcFail 0 l) 1
          ∧ t.reg .linkFecCorr 0 l = satAdd Fld.linkFecCorr.spec.w (s.reg .linkFecCorr 0 l) (frame.err0 + frame.err1)))
        ∧ (flitCrc f = field f 12 4 → bits (field f 0 1) 0 4 = 3 → Does (.flitReceive l frame time) s (fun t => (t.link l).rxSeq = k.rxSeq
          ∧ t.net = s.net ∧ t.cores = s.cores ∧ t.mem = s.mem))
        ∧ (flitCrc f = field f 12 4 → k.headFaults f ≠ [] → Does (.flitReceive l frame time) s (fun t => (t.link l).rxSeq = k.rxSeq
          ∧ t.reg .linkViolTotal 0 l = satAdd Fld.linkViolTotal.spec.w (s.reg .linkViolTotal 0 l) (k.headFaults f).length ∧ t.cores = s.cores ∧ t.mem = s.mem))
        ∧ (flitCrc f = field f 12 4 → k.headFaults f = [] → bits (field f 0 1) 0 4 = 1 → bits (field f 2 2) 0 12 = k.rxSeq → Does (.flitReceive l frame time) s (fun t => (t.link l).rxSeq = (k.rxSeq + 1) % 4096 ∧ (t.link l).rxAny = true
            ∧ t.cores = s.cores ∧ t.mem = s.mem))))
    ∧ (∀ (l : LinkId) seq, s.linkUp l = true → Does (.replay l seq) s (fun t =>
        t.reg .linkReplays 0 l = satAdd Fld.linkReplays.spec.w (s.reg .linkReplays 0 l) 1 ∧ (t.link l).unacked = (s.link l).unacked
        ∧ (∀ x ∈ (s.link l).unacked, seqAhead x.1 seq < 512 → ∃ b, .linkFlit l b ∈ t.out ∧ field b 2 2 = x.1 % 2 ^ 16)
        ∧ RegsBut s t (fun f i j => f = .linkReplays ∧ i = 0 ∧ j = l.val) ∧ t.net = s.net ∧ t.cores = s.cores ∧ t.mem = s.mem))
    ∧ (∀ (l : LinkId) (rec : CtrlRec), s.linkUp l = true → let j := s.rd .nackNext
      Does (.nackRecord l rec) s (fun t => t.reg .nackLogValid 0 j = 1 ∧ t.reg .nackLogLink 0 j = l.val % 2 ^ Fld.nackLogLink.spec.w
        ∧ t.reg .nackLogReason 0 j = rec.reason.toNat % 2 ^ Fld.nackLogReason.spec.w ∧ t.reg .nackLogSeq 0 j = rec.seq.toNat % 2 ^ Fld.nackLogSeq.spec.w
        ∧ t.reg .nackLogSlot 0 j = rec.slot.toNat % 2 ^ Fld.nackLogSlot.spec.w ∧ t.reg .nackLogPartner 0 j = s.reg .linkPartner 0 l % 2 ^ Fld.nackLogPartner.spec.w
        ∧ t.rd .nackNext = (j + 1) % 2 ^ Fld.nackNext.spec.w ∧ t.links = s.links ∧ t.net = s.net ∧ t.cores = s.cores ∧ t.mem = s.mem))
    ∧ (∀ (l : LinkId), s.linkUp l = true → (∃ m ∈ (s.link l).waiting, tabGet 0 (2 * m.op.vc + m.lane) (s.link l).credits < m.slots) →
      Does (.creditStall l) s (fun t => t.reg .linkStall 0 l = 1 ∧ t.reg .linkState 0 l = 3 ∧ t.reg .linkQuar 0 l = 1 ∧ (t.link l).waiting = []
        ∧ t.net = (s.link l).waiting.map (fun m => { m with link := 24 }) ++ s.net ∧ t.cores = s.cores ∧ t.mem = s.mem))
    ∧ (∀ k m, s.net[k]? = some m → m.dstChip ≠ s.chip → s.ordWaits m = false → s.switchNext k m = true →
      let lane := if m.lane = 0 ∧ s.usable (s.nextHop m.dstChip m.lane) = false then 1 else m.lane
      let h := s.nextHop m.dstChip lane
      (s.usable h = true → Does (.linkSwitchForward k) s (fun t => t.net = s.net.eraseIdx k ∧ t.regs = s.regs ∧ t.cores = s.cores ∧ t.mem = s.mem
          ∧ ∃ l, (l = h.2 ∨ l = h.2 + 1) ∧ ({ m with lane := lane, link := 24 } ∈ (t.link l).waiting ∨ ∃ x ∈ (t.link l).unacked, { m with lane := lane, link := 24 } ∈ x.2)))
      ∧ (s.usable h = false → m.answered = true → Does (.linkSwitchForward k) s (fun t => t.regs = s.regs ∧ t.cores = s.cores ∧ t.mem = s.mem
          ∧ ∃ a, t.net = s.net.eraseIdx k ++ [a] ∧ a.op = .nack ∧ a.code = 1 ∧ a.dstChip = m.srcChip ∧ a.dst = m.src ∧ a.tag = m.tag)))
    ∧ (∀ k m, s.arrival .keeper k = some m →
      let room := sumOf s.inbox (fun x => 16 * x.slots) + 16 * m.slots
      (65536 < room → Does (.keeper k) s (fun t => t.inbox = s.inbox ∧ t.regs = s.regs ∧ ∃ a, t.net = s.net.eraseIdx k ++ [a] ∧ a.op = .nack ∧ a.code = 5 ∧ a.dst = m.src
          ∧ a.dstChip = m.srcChip ∧ a.tag = m.tag))
      ∧ (room ≤ 65536 → m.code = 1 → Does (.keeper k) s (fun t => t.inbox = s.inbox ∧ t.reach (m.addr % 256) = false
          ∧ (∀ c, c < 256 → c ≠ m.addr % 256 → t.reach c = s.reach c) ∧ t.mem = s.mem))
      ∧ (room ≤ 65536 → m.code ≠ 1 → exec (.keeper k) s = .next ({ s with net := s.net.eraseIdx k, inbox := s.inbox ++ [m] } : State).settle))
    ∧ (∀ k m, s.net[k]? = some m → m.dstChip ≠ s.chip → s.ordWaits m = false → s.switchNext k m = true → m.lane ≤ 1 →
      s.usable (s.nextHop m.dstChip m.lane) = true → s.linkUp (s.nextHop m.dstChip m.lane).2 = true → s.linkUp ((s.nextHop m.dstChip m.lane).2 + 1) = false →
      let l := (s.nextHop m.dstChip m.lane).2
      let x := { m with link := 24 }
      let j := 2 * m.op.vc + m.lane
      let used := tabGet [] j (s.link l).used ++ [(s.linkOwner m, m.slots)]
      (s.link l).waiting = [] → (s.link l).unacked.length < 512 → m.slots ≤ 15 → m.slots ≤ tabGet 0 j (s.link l).credits →
      let may := (s.linkOwner m < 16 ∧ usedBy used (s.linkOwner m) ≤ s.linkReserve j (s.linkOwner m)) ∨ sharedUse (s.linkReserve j) used ≤ s.linkPool j
      (may → Does (.linkSwitchForward k) s (fun t => (t.link l).waiting = [] ∧ (t.link l).unacked = (s.link l).unacked ++ [((s.link l).txSeq, [x])]
        ∧ tabGet [] j (t.link l).used = used))
      ∧ (¬ may → Does (.linkSwitchForward k) s (fun t => (t.link l).waiting = [x] ∧ (t.link l).unacked = (s.link l).unacked)))
    ∧ (∀ k m, s.arrival .rewrite k = some m →
      let e := m.arg
      let u := bits e 8 7
      let i := bits e 15 4
      let v := bits e 24 40
      let awake (t : State) : Prop := (t.core u).cstate = (if (s.core u).cstate = 1 then 0 else (s.core u).cstate) ∧ CoresBut s t u
        ∧ t.net = s.net.eraseIdx k ∧ t.mem = s.mem
      (s.islandOff u = true → Does (.rewrite k) s (fun t => (t.rd .kprGstatus).testBit Gs.islandOff = true ∧ t.cores = s.cores
          ∧ t.net = s.net.eraseIdx k ∧ t.mem = s.mem))
      ∧ (s.islandOff u = false →
        (bits e 19 2 = 0 → Does (.rewrite k) s (fun t => t.reg .qdLendCore u i = bits v 12 7 ∧ t.reg .qdLendQ u i = bits v 19 4 ∧ t.reg .qdLendMin u i = bits v 23 13
            ∧ ((s.partOf (bits v 12 7) = s.partOf u ∧ s.reg .qdFlight (bits v 12 7) (bits v 19 4) = s.reg .qdFlight u i) → t.reg .qdLendEn u i = bits v 11 1)
            ∧ ((s.partOf (bits v 12 7) ≠ s.partOf u ∨ s.reg .qdFlight (bits v 12 7) (bits v 19 4) ≠ s.reg .qdFlight u i) → t.reg .qdLendEn u i = 0)
            ∧ awake t))
        ∧ (bits e 19 2 = 1 → Does (.rewrite k) s (fun t => t.reg .qsEn u i = bits v 0 1 ∧ t.reg .qsMode u i = bits v 1 1 ∧ t.reg .qsTchip u i = bits v 2 8
            ∧ t.reg .qsTcore u i = bits v 10 7 ∧ t.reg .qsTq u i = bits v 17 4
            ∧ (1 ≤ bits v 21 13 → bits v 21 13 ≤ 4096 → t.reg .qsQuota u i = bits v 21 13 ∧ t.reg .qsCredits u i = bits v 21 13)
            ∧ ((bits v 21 13 = 0 ∨ 4096 < bits v 21 13) → t.reg .qsQuota u i = s.reg .qsQuota u i ∧ t.reg .qsCredits u i = s.reg .qsCredits u i
                ∧ (t.rd .kprGstatus).testBit Gs.illegal = true)
            ∧ awake t))
        ∧ (bits e 19 2 = 2 → Does (.rewrite k) s (fun t => t.reg .qgMember u (8 * (i % 4) + bits e 21 3) = bits v 0 23
            ∧ RegsBut s t (fun f a b => f = .qgMember ∧ a = u ∧ b = 8 * (i % 4) + bits e 21 3) ∧ awake t))))

/-- What a job that ends is to write (R682, R685): its record, and only OUTCOME and JOBSEQ where its limit came under KEEP. A job whose descriptor
could not be read has no record. -/
def Sys2Proof.Claims.recordOf (job : TowJob) (run : TowRun) (outcome time : Nat) : List (Nat × Bytes) :=
  if job.desc.isEmpty then []
  else if outcome = To.dlKeep then [(jResult job.desc, toBytes 1 outcome), (jResult job.desc + 2, toBytes 2 job.slot)]
  else [(jResult job.desc, resultRec outcome job run time)]

/-- A job of an engine has ended (R682, R685, Table 14-6): it is neither held nor running, JOBS counts it, the record `recs` waits to be written
with its DONE signal behind it, and the status registers show an error or a missed deadline. -/
def Sys2Proof.Claims.JobEnded (s t : State) (e : Nat) (job : TowJob) (outcome : Nat) (recs : List (Nat × Bytes)) : Prop :=
  (∀ r ∈ (t.tow e).run, r.job.ord ≠ job.ord) ∧ (∀ j ∈ (t.tow e).jobs, j.ord ≠ job.ord)
    ∧ t.reg .towJobs e 0 = (s.reg .towJobs e 0 + 1) % 2 ^ Fld.towJobs.spec.w
    ∧ (t.tow e).done = (s.tow e).done ++ [⟨job.part, jCls job.desc, jDone job.desc, jDoneEn job.desc, recs⟩]
    ∧ (0xB0 ≤ outcome → t.reg .towErr e 0 = 1 ∧ t.reg .towPart e 0 = job.part % 2 ^ Fld.towPart.spec.w ∧ t.reg .towCode e 0 = outcome % 2 ^ Fld.towCode.spec.w)
    ∧ (jDl job.desc = true → (outcome = To.dlBest ∨ outcome = To.dlKeep) → t.reg .towMissed e 0 = 1) ∧ t.cores = s.cores

/-- R539, R650 to R654, R656, R661 to R671, R681 to R685 and Tables 14-5 and 14-6: an engine takes jobs while its doorbell stands above TAKEN and it holds fewer than 32; the job that starts next is
checked, a BEST-FIRST one with its START node in the queue; a batch is popped, its edges are checked one by one and relaxed in order; limits,
goals, errors and deadlines end the job; its DONE signal follows its record. -/
def Obligations.TowpathJobsComplete : Prop :=
  ∀ (s : State) (e : TowId) (time : Nat),
    let k := s.tow e
    (∀ (p : PartId) (times : List Nat) (ecc : List MemErr), s.reg .towRingEn e p = 1 → s.reg .partState 0 p = 1 →
      let at' (n : Nat) : Nat := 128 * (s.reg .towRingBase e p / 128) + 128 * (n % 2 ^ s.reg .towRingSizeLog2 e p)
      let n0 := s.reg .towRingTaken e p
      Does (.jobTake e p ⟨times, ecc⟩) s (fun t => ∃ l, (t.tow e).jobs = k.jobs ++ l ∧ (∀ j ∈ l, j.part = p.val)
        ∧ l.length ≤ times.length ∧ l.map TowJob.t0 = times.take l.length
        ∧ t.reg .towRingTaken e p = (n0 + l.length) % 2 ^ Fld.towRingTaken.spec.w
        ∧ (l.length = times.length ∨ s.slcCount (s.reg .towRingDoorbell e p) ≤ t.reg .towRingTaken e p ∨ 32 ≤ (t.tow e).jobs.length + b2n k.run.isSome
            ∨ t.portOpen Cls.towbe e = false ∨ t.clearPa Cls.towbe e p (at' (t.reg .towRingTaken e p)) 128 = false)
        ∧ (times ≠ [] → n0 < s.slcCount (s.reg .towRingDoorbell e p) → k.jobs.length + b2n k.run.isSome < 32 → s.portOpen Cls.towbe e = true →
            s.clearPa Cls.towbe e p (at' n0) 128 = true →
            ∃ j rest, l = j :: rest ∧ j.slot = n0 ∧
              let r := (s.memErrs p (at' n0) 128 ecc).readPa p (at' n0) 128
              j.desc = if r.2.2 = 0 then r.1 else [])
        ∧ (t.tow e).run = k.run ∧ t.cores = s.cores ∧ (ecc = [] → t.mem = s.mem)))
    ∧ (∀ job, k.run = none → pickJob k = some job → s.portOpen (jCls job.desc) e = true →
      let d := job.desc
      (d = [] → Does (.jobStart e time) s (fun t => JobEnded s t e job St.towMem []))
      ∧ (d ≠ [] → s.jobBad job.part d = true → Does (.jobStart e time) s (fun t => JobEnded s t e job St.towDesc (recordOf job (emptyRun job) St.towDesc time)))
      ∧ (d ≠ [] → s.jobBad job.part d = false → jLimit d ≤ time - job.t0 → Does (.jobStart e time) s (fun t => JobEnded s t e job (dlOutcome d) (recordOf job (emptyRun job) (dlOutcome d) time)))
      ∧ (d ≠ [] → s.jobBad job.part d = false → time - job.t0 < jLimit d →
        (jSweep d = true → Does (.jobStart e time) s (fun t => (t.tow e).run = some { job := job, cand := jStart d }
            ∧ (t.tow e).jobs = k.jobs.filter (fun j => decide (j.ord ≠ job.ord)) ∧ t.cores = s.cores ∧ t.mem = s.mem))
        ∧ (jSweep d = false →
          let x := (TowIo.mk s 0 []).putNode e job.part d (jStart d) ⟨0, jStart d, 0, false⟩
          (x.bad = 0 → Does (.jobStart e time) s (fun t => (t.tow e).run = some { job := job, queue := [(0, jStart d, 0)], nextOrd := 1 }
              ∧ (t.tow e).jobs = k.jobs.filter (fun j => decide (j.ord ≠ job.ord)) ∧ t.mem = x.s.mem ∧ t.cores = s.cores))
          ∧ (x.bad = St.towMem → Does (.jobStart e time) s (fun t => JobEnded s t e job St.towMem (recordOf job (emptyRun job) St.towMem time))))))
    ∧ (∀ r (ecc : List MemErr), k.run = some r → time - r.job.t0 ≤ jLimit r.job.desc → s.portOpen (jCls r.job.desc) e = true →
      let d := r.job.desc
      let p := r.job.part
      (jSweep d = false → r.edges = [] →
        (jExpMax d ≠ 0 → jExpMax d ≤ r.expanded → Does (.batchPop e ⟨time, ecc⟩) s (fun t => JobEnded s t e r.job To.limit (recordOf r.job r To.limit time) ∧ t.mem = s.mem))
        ∧ ((jExpMax d = 0 ∨ r.expanded < jExpMax d) → r.queue = [] → Does (.batchPop e ⟨time, ecc⟩) s (fun t => JobEnded s t e r.job To.exhausted (recordOf r.job r To.exhausted time)
            ∧ t.mem = s.mem))
        ∧ ((jExpMax d = 0 ∨ r.expanded < jExpMax d) → r.queue ≠ [] →
          let y := batchPops e p d (jBatch d) ⟨s, 0, ecc⟩ r
          (y.1.bad = 0 → y.2.2 = true → Does (.batchPop e ⟨time, ecc⟩) s (fun t => JobEnded s t e r.job To.goal (recordOf r.job y.2.1 To.goal time)
              ∧ t.mem = y.1.s.mem))
          ∧ (y.1.bad = 0 → y.2.2 = false → Does (.batchPop e ⟨time, ecc⟩) s (fun t => (t.tow e).run = some y.2.1 ∧ t.mem = y.1.s.mem ∧ t.cores = s.cores))
          ∧ (y.1.bad ≠ 0 → y.1.bad ≠ 255 → Does (.batchPop e ⟨time, ecc⟩) s (fun t =>
              JobEnded s t e r.job y.1.bad (recordOf r.job { y.2.1 with edges := [] } y.1.bad time)))))
      ∧ (
        let z := if jSweep d && r.edges.isEmpty then (TowIo.mk s 0 ecc).rows e p d r.cand else (TowIo.mk s 0 ecc, 0, 0)
        let r := if jSweep d && r.edges.isEmpty then
            { r with edges := (List.range z.2.2).map (fun i => (⟨0, 0, z.2.1 + i, 0, false, false, 0, 0⟩ : TowEdge)) } else r
        let c : Instr := .edgeCheck e ⟨time, ecc⟩
        -- a finished candidate is ranked, and the last one ends a SWEEP
        let goes (m : List Host.Cell) (r2 : TowRun) : Prop :=
          (jSweep d = false ∨ (r2.edges.any (fun x => !x.done) = true ∧ r2.cand < jStart d + jGoal d) →
            Does c s (fun t => (t.tow e).run = some r2 ∧ t.mem.cells = m ∧ t.cores = s.cores))
          ∧ (jSweep d = true → r2.edges.all (fun x => x.done) = true →
            (r2.cand + 1 < jStart d + jGoal d → Does c s (fun t => (t.tow e).run = some r2.candDone ∧ t.mem.cells = m ∧ t.cores = s.cores))
            ∧ (jStart d + jGoal d ≤ r2.cand + 1 → Does c s (fun t => JobEnded s t e r.job To.swept (recordOf r.job r2.candDone To.swept time))))
        (r.nextEdge = none → jSweep d = true →
          (z.1.bad ≠ 0 → z.1.bad ≠ 255 → Does c s (fun t => JobEnded s t e r.job z.1.bad (recordOf r.job r z.1.bad time)))
          ∧ (z.1.bad = 0 → goes s.mem.cells r))
        ∧ (∀ i ed, r.nextEdge = some (i, ed) →
        let y := checkEdge e p d z.1 ed.u ed.idx
        let r1 : TowRun := { r with checked := r.checked + 1 }
        (y.1.bad ≠ 0 → y.1.bad ≠ 255 → Does c s (fun t => JobEnded s t e r.job y.1.bad (recordOf r.job r y.1.bad time)))
        ∧ (y.1.bad = 0 →
          (y.2.2 = none → goes s.mem.cells { r with edges := r.edges.eraseIdx i })
          ∧ (∀ st, y.2.2 = some (.stop st) → Does c s (fun t => JobEnded s t e r.job st (recordOf r.job r1 st time)))
          ∧ (y.2.2 = some .reject → goes s.mem.cells { r1 with rejected := r.rejected + 1, edges := setAt r.edges i { ed with done := true, target := y.2.1 } })
          ∧ (y.2.2 = some .progEnd → goes s.mem.cells { r1 with rejected := r.rejected + 1, progEnd := true, edges := setAt r.edges i { ed with done := true, target := y.2.1 } })
          ∧ (∀ cost h, y.2.2 = some (.accept cost h) →
            (jSweep d = true → goes s.mem.cells { r1 with edges := setAt r.edges i { ed with done := true, ok := true, cost := cost, target := y.2.1 } })
            ∧ (jSweep d = false → 0xFFFFFFFF < ed.g + cost + h →
                goes s.mem.cells { r1 with rejected := r.rejected + 1, edges := setAt r.edges i { ed with done := true, target := y.2.1 } })
            ∧ (jSweep d = false → ed.g + cost + h ≤ 0xFFFFFFFF →
                goes s.mem.cells { r1.reached h (ed.g + cost) y.2.1 with edges := setAt r.edges i { ed with done := true, ok := true, cost := ed.g + cost, h := h, target := y.2.1 } })))))
      ∧ (jSweep d = false → r.edges ≠ [] → r.edges.all (fun x => x.done) = true →
        let y := r.edges.foldl (fun (acc : TowIo × TowRun) ed => relax e p d acc.1 acc.2 ed) (⟨s, 0, ecc⟩, { r with edges := [] })
        (y.1.bad = 0 → Does (.batchRelax e ⟨time, ecc⟩) s (fun t => (t.tow e).run = some y.2 ∧ y.2.edges = [] ∧ t.mem = y.1.s.mem ∧ t.cores = s.cores))
        ∧ (y.1.bad ≠ 0 → y.1.bad ≠ 255 → Does (.batchRelax e ⟨time, ecc⟩) s (fun t => JobEnded s t e r.job y.1.bad (recordOf r.job y.2 y.1.bad time)))))
    ∧ (∀ r, k.run = some r → jLimit r.job.desc ≤ time - r.job.t0 → Does (.jobDeadline e r.job.ord time) s (fun t => JobEnded s t e r.job (dlOutcome r.job.desc)
        (recordOf r.job { r with edges := [] } (dlOutcome r.job.desc) time) ∧ t.mem = s.mem))
    ∧ (∀ id j, (∀ r, k.run = some r → r.job.ord ≠ id) → k.jobs.find? (fun j => decide (j.ord = id)) = some j → j.desc ≠ [] → jLimit j.desc ≤ time - j.t0 →
      Does (.jobDeadline e id time) s (fun t => JobEnded s t e j (dlOutcome j.desc) (recordOf j (emptyRun j) (dlOutcome j.desc) time) ∧ t.mem = s.mem))
    ∧ (∀ x rest, k.done = x :: rest → (x.recs = [] ∨ s.portOpen x.cls e = true) → (∀ w ∈ x.recs, s.clearPa x.cls e x.part w.1 w.2.length = true) →
      let put (s : State) (w : Nat × Bytes) : State := ((s.countLines x.cls e (lineCount w.1 w.2.length)).writePa x.part w.1 w.2 false).1
      let y := x.recs.foldl put s
      Does (.jobResultVisible e) s (fun t => (t.tow e).done = rest ∧ t.mem = y.mem ∧ t.cores = s.cores ∧ (x.sig = false → t.net = y.net)
        ∧ (x.sig = true → ∃ m, t.net = y.net ++ [m] ∧ m.op = .sop ∧ m.code = 0 ∧ m.arg = 1 ∧ m.addr = x.num ∧ m.part = x.part ∧ m.dst = bankIsland x.num ∧ m.dstChip = s.chip)
        ∧ (x.recs = [] → t.regs = s.regs ∧ t.mem = s.mem ∧ y.net = s.net)))
    ∧ (∀ r, k.run = some r → jDl r.job.desc = true → Does (.towdlUrgency e time) s (fun t =>
        let x := { s.bwPort Cls.towdl e with fill := min ((time - r.job.t0) * 16 / max 1 (jLimit r.job.desc)) 16 }
        t.bwPort Cls.towdl e = { x with urg := s.newUrg Cls.towdl e x } ∧ t.regs = s.regs ∧ t.tows = s.tows ∧ t.cores = s.cores ∧ t.mem = s.mem))

/-- A core whose task has ended for good: it runs nothing and is in C3. -/
def Sys2Proof.Claims.Retired (t : State) (u : Nat) : Prop := (t.core u).tasked = false ∧ (t.core u).cstate = 3 ∧ t.reg .coreRun u 0 = 0

/-- Every core of a launch has stopped or is stopping. -/
def Sys2Proof.Claims.Halting (s t : State) (l : Launch) (p : Nat → Prop) : Prop :=
  ∀ u ∈ l.cores, p u → (s.core u).launch = some l.lid → (t.core u).stopping = true ∨ (t.core u).tasked = false

/-- R467 to R471, R642, R787, R789, R796 to R803 and R813 to R815: a fenced core stops and leaves its launch with CORE_FENCED, or waits for its map; a map that serves rewrites the queues and starts
its spare, any other case stops the flight; a chip fault stops every partition and tells every chip; a trigger halts the core or captures its arrays. -/
def Obligations.FaultsTakeEffect : Prop :=
  ∀ (s : State),
    (∀ (u : CoreId), s.fenced u = false →
      let fb := (s.launchOf u).any (fun l => decide (l.fallback ≠ 0))
      let fences (t : State) : Prop := t.fenced u = true ∧ (∀ v, v ≠ u.val → t.fenced v = s.fenced v) ∧ t.reg .coreRun u 0 = 0 ∧ (t.core u).xfers = [] ∧ (t.core u).heldMma = []
        ∧ tabGet 0 u t.pow.ballast = 0 ∧ (∀ v, v ≠ u.val → tabGet 0 v t.pow.ballast = tabGet 0 v s.pow.ballast)
        ∧ CoresBut s t u ∧ t.mem = s.mem
        ∧ ((s.core u).tasked = false → (t.core u).tasked = false ∧ (t.core u).cstate = (s.core u).cstate)
        ∧ ((s.core u).tasked = true → fb = true → (t.core u).tasked = true ∧ (t.core u).stopping = true ∧ t.host.launches = s.host.launches
            ∧ t.reg .tstatusCode u 0 = St.coreFenced ∧ t.reg .tstatusValid u 0 = 1)
        ∧ ((s.core u).tasked = true → fb = false → Retired t u ∧ ∀ l ∈ s.host.launches, (s.core u).launch = some l.lid → u.val ∈ l.cores →
            (∀ e ∈ l.ended, e.1 ≠ u.val) → ∃ y ∈ t.host.launches, y.lid = l.lid ∧ (u.val, St.coreFenced, s.pc u) ∈ y.ended)
      (∀ c, (c = 0 ∨ (c = 2 ∧ s.fenceDue u 2 = true) ∨ (c = 3 ∧ s.fenceDue u 3 = true) ∨ (c = 5 ∧ s.rd .kprReady = 0)) → Does (.coreFence u c) s fences)
      ∧ (u.val < 128 → Does (.coreFence u 4) s (fun t => (∀ i, i < 4 → t.fenced (u.val / 4 * 4 + i) = true) ∧ (∀ v, v / 4 ≠ u.val / 4 → t.core v = s.core v ∧ t.fenced v = s.fenced v)
          ∧ t.mem = s.mem))
      ∧ ((s.core u).cstate = 0 → s.reg .dbgHalted u 0 = 0 → Does (.crossingWatchdog u) s fences))
    ∧ (∀ unit, unit ≤ 128 → (s.core unit).corrected ≠ 0 → Does (.correctedReport 1 unit) s (fun t => t.core unit = { s.core unit with corrected := 0 } ∧ CoresBut s t unit
        ∧ (unit < 128 → s.errs.length < 1024 → ∃ x ∈ t.errs, x.cls = 0 ∧ x.source = 1 ∧ x.unit = unit ∧ (s.core unit).corrected ≤ x.count) ∧ t.mem = s.mem))
    ∧ (∀ source unit, source ≠ 1 → tabGet 0 (256 * source + unit) s.corr ≠ 0 → Does (.correctedReport source unit) s (fun t => tabGet 0 (256 * source + unit) t.corr = 0
        ∧ (s.errs.length < 1024 → ∃ x ∈ t.errs, x.cls = 0 ∧ x.source = source ∧ x.unit = unit ∧ tabGet 0 (256 * source + unit) s.corr ≤ x.count) ∧ t.cores = s.cores ∧ t.mem = s.mem))
    ∧ (∀ (u : CoreId) readable (ecc : List MemErr) l, s.launchOf u = some l → s.fenced u = true → l.fallback ≠ 0 → (s.core u).tasked = true →
      (∀ w ∈ l.cores, w < u.val → s.fenced w = true → (s.core w).tasked = false) → s.canAccess Cls.mgmt 16 l.part l.fallback 1024 = true →
      let c : Instr := .fallbackMapApply u ⟨readable, ecc⟩
      let x := (s.memErrs l.part l.fallback 1024 ecc).countLines Cls.mgmt 16 (lineCount l.fallback 1024)
      let stops (t : State) : Prop := Retired t u ∧ Halting s t l (fun w => w ≠ u.val) ∧ t.mem = x.mem
        ∧ ∀ y ∈ t.host.launches, y.lid = l.lid → forcedRank St.flightLost ≤ forcedRank y.forced
      (l.forced ≠ 0 → Does c s (fun t => Retired t u ∧ CoresBut s t u ∧ t.mem = x.mem))
      ∧ (l.forced = 0 → x.findMap l u = none → Does c s stops)
      ∧ (∀ i m, l.forced = 0 → x.findMap l u = some (i, m) →
        (x.mapLost u m readable = true → Does c s stops)
        ∧ (x.mapLost u m readable = false →
          Does c s (fun t => Retired t u ∧ t.mem = x.mem
            ∧ (∀ y ∈ t.host.launches, y.lid = l.lid → u.val ∉ y.cores ∧ i ∈ y.maps)
            ∧ (field m 2 1 = 0 → field m 3 1 = s.chip → let v := bits (field m 3 2) 8 7
                (t.core v).tasked = true ∧ (t.core v).launch = some l.lid ∧ t.reg .coreRun v 0 = 1
                ∧ t.pc v = bits (field (x.readPa l.part (tabGet 0 u l.recs) 1024).1 0x10 2) 0 12
                ∧ ∀ y ∈ t.host.launches, y.lid = l.lid → v ∈ y.cores)
            ∧ (∀ e ∈ mapRewrites m, bits e 0 8 ≠ s.chip → ∃ y ∈ t.net, y.op = .rewrite ∧ y.dstChip = bits e 0 8 ∧ y.arg = e)
            ∧ (∀ b, (s.core u).barge = some b → field m 3 1 ≠ s.chip →
                ∃ y ∈ t.net, y.op = .item ∧ y.srcChip = s.chip ∧ y.src = u.val ∧ y.sub = 0 ∧ y.data = b.data ∧ y.poison = b.poison
                  ∧ (b.core ≠ u.val → y.dstChip = s.chip ∧ y.dst = b.core ∧ y.dsub = b.queue))))))
    ∧ (∀ source unit, source ∈ ([2, 7, 8, 9] : List Nat) →
      (s.env.chipOut = true → Does (.chipFault source unit) s (fun t => t.env.chipOut = true ∧ t.net = s.net ∧ t.cores = s.cores ∧ t.mem = s.mem))
      ∧ (s.env.chipOut = false → Does (.chipFault source unit) s (fun t => t.env.chipOut = true
          ∧ (∀ p, p < 16 → s.reg .partState 0 p = 1 → t.reg .partState 0 p = 2) ∧ (∀ l ∈ s.host.launches, Halting s t l (fun _ => True))
          ∧ (source ≠ 9 → ∀ d, d < s.chips → d ≠ s.chip → ∃ m ∈ t.net, m.op = .keeper ∧ m.code = 1 ∧ m.addr = s.chip ∧ m.dstChip = d))))
    ∧ (∀ chip, chip < s.chips → chip ≠ s.chip → (∃ e, e < 12 ∧ s.linkPeer (2 * e) = chip ∧ s.linkUp (2 * e) = false ∧ s.linkUp (2 * e + 1) = false) →
      Does (.downNoticeTimeout chip) s (fun t => t.reach chip = false ∧ t.mem = s.mem
        ∧ ∀ d, d < s.chips → d ≠ s.chip → d ≠ chip → ∃ m ∈ t.net, m.op = .keeper ∧ m.code = 1 ∧ m.addr = chip ∧ m.dstChip = d))
    ∧ (∀ u : CoreId, s.reg .dbgEn u 0 = 1 → s.fenced u = false → (s.core u).tasked = true → (s.core u).fired = false → (s.core u).capture = none →
      s.reg .dbgHalted u 0 = 0 → s.trigHit u = true →
      Does (.captureTrigger u) s (fun t => (t.core u).fired = true ∧ CoresBut s t u ∧ t.mem = s.mem ∧ t.pc u = s.pc u
        ∧ (s.reg .dbgTrigAction u 0 = 0 → t.reg .dbgHalted u 0 = 1 ∧ (t.core u).capture = none ∧ tabGet 0 u t.pow.ballast = 0)
        ∧ (s.reg .dbgTrigAction u 0 ≠ 0 → t.reg .dbgHalted u 0 = 0 ∧ (t.core u).capture = some (s.reg .dbgTrigKind u 0))))
    ∧ (∀ u : CoreId, (s.core u).capture.isSome = true →
      let p := s.corePart u
      let a := s.reg .dbgCapAddr u 0
      let n := 65536 * countOnes 4 (s.reg .dbgTrigCmask u 0)
      let idle := (∀ x ∈ (s.core u).waits, x.state ≠ 2) ∧ FrontWaits s u
      ((∃ x ∈ linesOf a n, s.xlate p x.1 true = none) → Does (.captureCopyDone u) s (fun t => t.reg .dbgCapErr u 0 = 1 ∧ (t.core u).capture = none
          ∧ (idle → t.core u = { s.core u with capture := none }) ∧ CoresBut s t u))
      ∧ ((∀ x ∈ linesOf a n, s.xlate p x.1 true ≠ none) → s.canAccess Cls.mgmt 16 p a n = true →
          exec (.captureCopyDone u) s = .next (((s.setCore u { s.core u with capture := none }).putCapture p a (chunks 8 4096 (s.captured u))).goOn u).settle))

/-- R769 to R772, R895 to R898 and Tables 20-14 and 20-15: a management command is answered, BUSY before it is served; PSTATE_REQ asks for RUN, STANDBY or OFF; a TAP instruction
selects its register, a boundary instruction only while RESET_N is low. -/
def Obligations.ManagementAndTestAccessComplete : Prop :=
  ∀ (s : State),
    (∀ j h w, 4 ≤ s.rd .kprStep → exec (.getStatus j h w) s = .next (s.emit (.mctp 2 0 (toBytes 8 (s.regRead ⟨.kpr, 2, 0, 0⟩ 8) ++ toBytes 8 (s.regRead ⟨.kpr, 2, 0, 0x30⟩ 8)
        ++ toBytes 2 j ++ toBytes 2 h ++ toBytes 4 (s.pow.p4 / 4) ++ toBytes 4 w))).settle)
    ∧ (4 ≤ s.rd .kprStep → s.rd .kprReady = 0 → (∀ x, exec (.pstateReq x) s = .next (s.emit (.mctp 3 1 [])).settle)
        ∧ exec .telemetry s = .next (s.emit (.mctp 8 1 [])).settle)
    ∧ (4 ≤ s.rd .kprStep → s.rd .kprReady = 1 →
      exec .telemetry s = .next (s.emit (.mctp 8 0 (s.env.pmbus.flatMap (fun r => toBytes 4 r)))).settle
      ∧ exec (.pstateReq 1) s = .next (s.emit (.mctp 3 3 [])).settle
      ∧ (s.rd .kprPstateState = 2 → s.env.off = false →
          exec (.pstateReq 0) s = .next (({ s with env := { s.env with runWait := true } } : State).emit (.mctp 3 0 [])).settle)
      ∧ (s.rd .kprPstateState ≠ 2 → Does (.pstateReq 0) s (fun t => t.env.standbyIn = false ∧ .mctp 3 0 [] ∈ t.out ∧ t.regs = s.regs ∧ t.cores = s.cores ∧ t.mem = s.mem))
      ∧ (s.rd .kprPstateState ≠ 2 → s.idleAll = true → s.env.offIn = false →
          (s.nearStandby = true →
            Does (.pstateReq 2) s (fun t => t.rd .kprPstateState = 2 ∧ .mctp 3 0 [] ∈ t.out ∧ t.cores = s.cores ∧ t.mem = s.mem))
          ∧ (s.nearStandby = false →
            exec (.pstateReq 2) s = .next (({ s with env := { s.env with standbyIn := true } } : State).emit (.mctp 3 0 [])).settle))
      ∧ (s.rd .kprPstateState = 2 → Does (.pstateReq 2) s (fun t => t.env.runWait = false ∧ .mctp 3 0 [] ∈ t.out ∧ t.regs = s.regs ∧ t.cores = s.cores ∧ t.mem = s.mem))
      ∧ (s.rd .kprPstateState ≠ 2 → (s.idleAll = false ∨ s.env.offIn = true) →
          Does (.pstateReq 2) s (fun t => t.rd .kprRefused = 1 ∧ t.rd .kprPstateState = s.rd .kprPstateState ∧ .mctp 3 2 [] ∈ t.out ∧ t.cores = s.cores ∧ t.mem = s.mem))
      ∧ (s.env.off = false → s.env.offIn = false → Does (.pstateReq 3) s (fun t => t.env.offIn = true ∧ .mctp 3 0 [] ∈ t.out
          ∧ ∀ p, p < 16 → t.reg .partState 0 p = if s.reg .partState 0 p = 1 then 2 else s.reg .partState 0 p)))
    ∧ (let to_ (r : String) (v : Option Nat) : State := (({ s with tap := r } : State).emit (.jtag r v)).settle
      exec .idcode s = .next (to_ "IDCODE" (some (s.fuses.stepMajor % 16 * 2 ^ 28 + 0x5A32 * 2 ^ 12 + 0x4D9 * 2 + 1)))
      ∧ exec .samplePreload s = .next (to_ "SAMPLE/PRELOAD" none)
      ∧ (∀ x ∈ ([(.extest, "EXTEST"), (.extestPulse, "EXTEST_PULSE"), (.extestTrain, "EXTEST_TRAIN"), (.hbm1500, "HBM_1500")] : List (Instr × String)),
          exec x.1 s = .next (to_ (if s.env.resetLow then x.2 else "BYPASS") none))
      ∧ (∀ code : BitVec 8, code.toNat ∉ ([1, 2, 3, 4, 5, 0x10] : List Nat) → exec (.bypass code) s = .next (to_ "BYPASS" none)))

/-- The registers and the scratchpad of the YZ2-KB block after a T reset (Table 20-6), with the block in C1 and no task. -/
def Sys2Proof.Claims.KbCleared (s t : State) : Prop :=
  (∀ f j, f.spec.blk.ofCore = true → f.spec.clr.t = true → j < 32768 → t.reg f 128 j = resetVal s.fuses f j % 2 ^ f.spec.w)
    ∧ (t.core 128).tasked = false ∧ (t.core 128).cstate = 1 ∧ (t.core 128).spd = [] ∧ (t.core 128).pairAct = 0xFFFF ∧ CoresBut s t 128 ∧ t.mem = s.mem
    ∧ ∃ n, .kbStat (6 + n * 16) ∈ t.out

/-- While its wrapper is in WS_BYPASS (that a block in any other mode takes no command: log 109, the model's choice) and RST_N is high: R334, R356, R416, R760, R761, R765 to R768, R796, R870, R871, R875, R881, R882, R900 and Table 20-6: each CTL command of the YZ2-KB block has its effect, RST_N resets it, a GRANT or its
absence sets its budget and is answered by a request, a protocol fault fences it, and TRQ reaches its registers. -/
def Obligations.KbBlockCompletes : Prop :=
  ∀ (s : State),
    let up := s.kbUp = true
    let kbZero (t : State) : Prop := ∀ f ∈ kbFields, t.reg f 128 0 = 0
    (up → Does .ctlPReset s (fun t => KbCleared s t ∧ kbZero t ∧ (t.core 128).pstore = [] ∧ t.kb = {}))
    ∧ (up → Does .ctlCReset s (fun t => KbCleared s t ∧ kbZero t ∧ (t.core 128).pstore = (s.core 128).pstore ∧ t.kb = {}))
    ∧ (up → Does .ctlTReset s (fun t => KbCleared s t ∧ (∀ f ∈ kbFields, t.reg f 128 0 = s.reg f 128 0) ∧ (t.core 128).pstore = (s.core 128).pstore ∧ t.kb = s.kb))
    ∧ (up → s.fenced 128 = true → Does .ctlKReset s (fun t => (∃ n, .kbStat (6 + n * 16) ∈ t.out) ∧ t.regs = s.regs ∧ t.cores = s.cores))
    ∧ (up → s.fenced 128 = false → (s.core 128).tasked = false → Does .ctlKReset s (fun t => t.core 128 = ((s.flushAll 128).core 128).afterK
        ∧ (∀ f j, f.spec.blk.ofCore = true → f.spec.clr.k = true → j < 32768 → t.reg f 128 j = resetVal s.fuses f j % 2 ^ f.spec.w)
        ∧ (∃ n, .kbStat (6 + n * 16) ∈ t.out) ∧ CoresBut s t 128 ∧ t.mem = s.mem))
    ∧ (up → s.fenced 128 = false → (s.core 128).tasked = true → Does .ctlKReset s (fun t => ((t.core 128).stopping = true ∨ (t.core 128).tasked = false) ∧ CoresBut s t 128 ∧ t.mem = s.mem))
    ∧ (∀ arg : BitVec 12, up → s.fenced 128 = false →
      (arg.toNat % 4 = 0 → Does (.ctlEnterState arg) s (fun t => (t.core 128).cstate = 0 ∧ .kbStat 2 ∈ t.out ∧ CoresBut s t 128 ∧ t.mem = s.mem))
      ∧ (arg.toNat % 4 ≠ 0 → exec (.ctlEnterState arg) s = .next (s.setCore 128 { s.core 128 with cReq := some (arg.toNat % 4) }).settle)
      ∧ ((s.core 128).tasked = false → Does (.ctlStart arg) s (fun t => (t.core 128).tasked = true ∧ (t.core 128).cstate = 0 ∧ t.reg .coreRun 128 0 = 1 ∧ t.pc 128 = arg.toNat
          ∧ t.reg .tstatusValid 128 0 = 0 ∧ (∀ n, 0 < n → n < 32 → t.sreg 128 n = 0) ∧ CoresBut s t 128 ∧ t.mem = s.mem)))
    ∧ (up → s.fenced 128 = false → (s.core 128).launch = none → Does .ctlFence s (fun t => t.fenced 128 = true ∧ t.reg .coreRun 128 0 = 0
        ∧ ((s.core 128).tasked = true → (t.core 128).tasked = false ∧ (t.core 128).cstate = 3) ∧ (∃ n, .kbStat (3 + n * 16) ∈ t.out) ∧ CoresBut s t 128 ∧ t.mem = s.mem))
    ∧ (up → Does .ctlHalt s (fun t => ((t.core 128).stopping = true ∨ (t.core 128).tasked = false) ∧ CoresBut s t 128 ∧ t.mem = s.mem))
    ∧ (∀ arg : BitVec 12, up → s.islandOff 128 = false → Does (.ctlClear arg) s (fun t => CoresBut s t 128 ∧ t.mem = s.mem
        ∧ ∀ p, p < 8 → if arg.toNat.testBit p then t.pairIs 128 p = 3 ∧ ∀ b, b / 98304 = p → t.spdByte 128 b = 0
            else t.pairIs 128 p = s.pairIs 128 p ∧ ∀ b, b / 98304 = p → t.spdByte 128 b = s.spdByte 128 b))
    ∧ (∀ w : BitVec 16, up → (w.toNat % 16 = 0 ∨ 9 < w.toNat % 16) → exec (.ctlUndefined w) s = .next (s.emit (.kbStat 4)).settle)
    ∧ Does .kbRstNAssert s (fun t => t.kb = { rstLow := true, wrapper := s.kb.wrapper } ∧ kbZero t ∧ (t.core 128).tasked = false ∧ (t.core 128).pstore = [] ∧ CoresBut s t 128 ∧ t.mem = s.mem)
    ∧ (s.kb.rstLow = true → Does .kbRstN s (fun t => KbCleared s t ∧ kbZero t ∧ (t.core 128).pstore = [] ∧ t.kb = { wrapper := s.kb.wrapper }))
    ∧ (∀ w : BitVec 32, up → Does (.kbGrant w) s (fun t => t.kb = { s.kb with granted := true, atMin := false, epoch := bits w.toNat 24 8, units := bits w.toNat 0 12, ballast := bits w.toNat 12 12 } ∧ (∃ n, .kbPwr n ∈ t.out ∧ n % 256 = s.reg .kbIsland 128 0) ∧ t.regs = s.regs ∧ t.cores = s.cores))
    ∧ (up → s.kb.granted = true → Does .kbGrantTimeout s (fun t => t.kb = { s.kb with atMin := true, ballast := 0 } ∧ t.reg .kbEpochLost 128 0 = 1
        ∧ (∃ n, .kbPwr n ∈ t.out ∧ n % 256 = s.reg .kbIsland 128 0) ∧ t.cores = s.cores))
    ∧ (∀ port ∈ ([2, 3, 5, 6, 8, 9, 12, 13] : List Nat), up → Does (.protoFault port) s (fun t => t.reg .kbProtoFault 128 0 = 1 ∧ t.reg .kbPort 128 0 = port
        ∧ t.fenced 128 = true ∧ CoresBut s t 128 ∧ t.mem = s.mem))
    ∧ (∀ (hdr data : BitVec 64), up →
      let off := 4 * bits hdr.toNat 2 21
      let size := if hdr.toNat.testBit 1 then 8 else 4
      (hdr.toNat.testBit 0 = false → s.place .trq off = none → sizeOk off size = true → Does (.trqAccess hdr data) s (fun t => .kbTrs 4 ∈ t.out ∧ t.regs = s.regs ∧ t.cores = s.cores))
      ∧ (∀ l f j, hdr.toNat.testBit 0 = false → Reaches s .trq off size l → l.win = none → l.assigned size = true → j < 32768 → l.under size = [(f, j)] → f.spec.acc ≠ .wo →
        let x := l.span size f j
        Does (.trqAccess hdr data) s (fun t => .kbTrs (bits (s.reg f l.inst j) x.1 x.2.1 * 2 ^ x.2.2 * 2 ^ 16) ∈ t.out ∧ t.cores = s.cores ∧ t.mem = s.mem
          ∧ RegsBut s t (fun g i n => g = f ∧ i = l.inst ∧ n = j)))
      ∧ (∀ l f j, hdr.toNat.testBit 0 = true → Reaches s .trq off size l → l.win = none → l.assigned size = true → j < 32768 → l.under size = [(f, j)] → l.blk = f.spec.blk → f ∈ plainRw →
        Does (.trqAccess hdr data) s (fun t => .kbTrs 0 ∈ t.out ∧ t.reg f l.inst j = l.merge size data.toNat f j (s.reg f l.inst j) % 2 ^ f.spec.w
          ∧ RegsBut s t (fun g i n => g = f ∧ i = l.inst ∧ n = j) ∧ t.cores = s.cores ∧ t.mem = s.mem))
      ∧ (hdr.toNat.testBit 0 = true → hdr.toNat.testBit 1 = true → off = 0x100800 → s.islandOff 128 = false → (s.core 128).cstate = 0 →
        let d := data.toNat
        (s.reg .coreRun 128 0 = 0 → bits d 34 15 ≤ 16384 → Does (.coreKbCfgWrite hdr data) s (fun t => .kbTrs 0 ∈ t.out ∧ t.reg .kbChipNum 128 0 = bits d 0 8 ∧ t.reg .kbCoreNum 128 0 = bits d 8 7
          ∧ t.reg .kbPart 128 0 = bits d 16 4 ∧ t.reg .kbSlcBase 128 0 = bits d 20 14 ∧ t.reg .kbSlcSize 128 0 = bits d 34 15 ∧ t.reg .kbIsland 128 0 = bits d 49 8
          ∧ t.cores = s.cores ∧ t.mem = s.mem))
        ∧ (s.reg .coreRun 128 0 = 1 → Does (.coreKbCfgWrite hdr data) s (fun t => .kbStat (4 + 2 * 16 + 0x800 * 2 ^ 24) ∈ t.out ∧ t.regs = s.regs ∧ t.cores = s.cores))))

/-- R327 to R332 and R340 to R350: a pair asked for RETAIN or OFF begins once nothing covers it, and at its end is in the state asked, a pair that enters or leaves OFF
holding zero; the scrubber reads the next ON row, counts and logs what it finds there, and goes on. -/
def Obligations.PairsAndScrubComplete : Prop :=
  ∀ (s : State) (u : CoreId),
    let c := s.core u
    (∀ (p : Fin 8) x, c.pairNext.find? (fun x => decide (x.1 = p.val)) = some x → c.pairRun.any (fun y => decide (y.1 = p.val)) = false → sbCovers c p = false →
      Does (.pairTransitionStart u p) s (fun t => (t.core u).pairRun = c.pairRun ++ [x] ∧ (t.core u).pairNext = c.pairNext.filter (fun y => decide (y.1 ≠ p.val))
        ∧ (t.reg .spdBusy u 0).testBit p = true ∧ (t.core u).spd = c.spd ∧ (t.core u).spdPsn = c.spdPsn
        ∧ (∀ r, c.scrubWb = some r → r / 192 = p.val → (t.core u).scrubWb = none) ∧ CoresBut s t u ∧ t.mem = s.mem))
    ∧ (∀ (p : Fin 8) x, c.pairRun.find? (fun x => decide (x.1 = p.val)) = some x → x.2 < 4 →
      Does (.pairTransitionDone u p) s (fun t => t.pairIs u p = x.2 ∧ (∀ q, q < 8 → q ≠ p.val → t.pairIs u q = s.pairIs u q)
        ∧ ((s.pairIs u p = 0 ∨ x.2 = 0) → ∀ b, b / 98304 = p.val → t.spdByte u b = 0)
        ∧ (∀ b, b / 98304 ≠ p.val → t.spdByte u b = s.spdByte u b)
        ∧ (s.pairIs u p ≠ 0 → x.2 ≠ 0 → (t.core u).spd = c.spd ∧ (t.core u).spdPsn = c.spdPsn)
        ∧ ((∀ y ∈ c.pairNext, y.1 ≠ p.val) → (t.core u).pairRun = c.pairRun.filter (fun y => decide (y.1 ≠ p.val)) ∧ (t.reg .spdBusy u 0).testBit p = false)
        ∧ (∀ y, c.pairNext.find? (fun y => decide (y.1 = p.val)) = some y → y.2 = 3 → x.2 ≠ 3 →
            (t.core u).pairRun = c.pairRun.filter (fun y => decide (y.1 ≠ p.val)) ++ [(p.val, 3)] ∧ (t.reg .spdBusy u 0).testBit p = true)
        ∧ CoresBut s t u ∧ t.mem = s.mem))
    ∧ (∀ cancel ecc r, s.reg .spdScrubInterval u 0 ≠ 0 → s.islandOff u = false → s.nextOnRow u 1536 c.scrubRow = some r →
      let mine := ecc.filter (fun e => decide (e.word / 64 = r))
      Does (.scrubRead u cancel ecc) s (fun t => (t.core u).scrubRow = (r + 1) % 1536 ∧ (t.core u).scrubWb = (if mine.isEmpty || cancel then none else some r)
        ∧ (t.core u).spd = c.spd ∧ (∀ e ∈ mine, e.ue = true → e.word ∈ (t.core u).spdPsn ∧ t.reg .spdUe u 0 = 1)
        ∧ (∀ e ∈ mine, e.ue = false → t.reg .spdCe u 0 = 1)
        ∧ t.reg .spdCeCount u 0 = satAdd Fld.spdCeCount.spec.w (s.reg .spdCeCount u 0) (mine.filter (fun e => !e.ue)).length
        ∧ CoresBut s t u ∧ t.mem = s.mem))
    ∧ (s.reg .spdScrubInterval u 0 ≠ 0 → exec (.scrubLate u) s = .next (s.setReg .spdScrubLate u 0 1).settle)

/-- A step of the block is its front command: with `c` at the front of the queue, a step is `c`'s effect on the state with the queue's rest. -/
def Obligations.StepRunsFront : Prop := ∀ (c : Instr) (rest : List Instr) (s : State), s.pending = c :: rest → step s = exec c { s with pending := rest }

/-- With no command waiting, a step changes nothing (log 4: the model's choice). -/
def Obligations.IdleStep : Prop := ∀ s : State, s.pending = [] → step s = .next s

/-- Every command has an effect or leaves the state as it is: none ends in a fault or a refusal, in any state and with any operands (log 5: a command whose
condition does not hold is the model's choice of a step that changes nothing). -/
def Obligations.EveryCommandAnswers : Prop := ∀ (c : Instr) (s : State), ∃ t, exec c s = .next t

/-- What stands right after reset: every field of every register block reads as its Reset value, and the cores, links, engines, memory and everything in
flight are as R365, R748 and Tables 07-5, 16-1 and 16-5 leave them. A Reset value that the manual gives as undefined is the model's 0 (log 2), and
memory's contents are the model's choice (log 3). -/
def Obligations.ResetValues : Prop :=
  (∀ f i j, i < 256 → j < 32768 → State.reset.reg f i j = resetVal State.reset.fuses f j % 2 ^ f.spec.w)
  ∧ State.reset.rd .kprStep = 1 ∧ State.reset.rd .kprReady = 0
  ∧ (∀ u, (State.reset.core u).cstate = 1 ∧ (State.reset.core u).tasked = false ∧ State.reset.fenced u = false ∧ State.reset.tc u 0 = 0x10000000
      ∧ (∀ p, p < 8 → State.reset.pairIs u p = 3) ∧ ∀ b, State.reset.spdByte u b = 0)
  ∧ (∀ l, State.reset.link l = {}) ∧ (∀ e, State.reset.tow e = {}) ∧ State.reset.mem.wf ∧ State.reset.net = [] ∧ State.reset.waiters = []
  ∧ State.reset.host = {} ∧ State.reset.pending = [] ∧ State.reset.out = []

/-- The record of interrupt sources that were sent agrees with the sources themselves (R852): a source whose summary bit stands and is enabled has been
sent, and one that is recorded as sent still stands, so that it is not sent again before it returns to 0. -/
def Sys2Proof.Claims.IntInv (s : State) : Prop :=
  ∀ i, i < 13 → (s.summary.testBit i = true → (s.rd .kprIntEn).testBit i = true → s.env.intLast.testBit i = true)
    ∧ (s.env.intLast.testBit i = true → s.summary.testBit i = true)

/-- R852: the record of sent sources agrees with the sources right after reset. -/
def Obligations.IntInvAtReset : Prop := IntInv State.reset

/-- R852: every step, of any command in any state, keeps the record of sent sources in agreement with the sources. -/
def Obligations.IntInvKept : Prop := ∀ s t : State, IntInv s → step s = .next t → IntInv t
end

