-- ==== Sys2Proof/Laws/Tab.lean ====
section
/-! SUPPORT. Laws of sparse tables: reading after a write, and the canonical form kept by every operation. -/

namespace Sys2Proof.Machine

variable {α : Type}

theorem tabGet_tabErase_self (d : α) (k : Nat) (t : List (Nat × α)) : tabGet d k (tabErase k t) = d := by
  induction t with
  | nil => rfl
  | cons x t ih =>
    obtain ⟨a, w⟩ := x
    simp only [tabErase]
    split
    · exact ih
    · rename_i h; simp [tabGet, h, ih]

theorem tabGet_tabErase_ne (d : α) {k j : Nat} (h : j ≠ k) (t : List (Nat × α)) : tabGet d j (tabErase k t) = tabGet d j t := by
  induction t with
  | nil => rfl
  | cons x t ih =>
    obtain ⟨a, w⟩ := x
    simp only [tabErase]
    split
    · subst_vars; simp [tabGet, h.symm, ih]
    · simp [tabGet, ih]

theorem tabGet_tabInsert_ne (d : α) {k j : Nat} (h : j ≠ k) (v : α) (t : List (Nat × α)) : tabGet d j (tabInsert k v t) = tabGet d j t := by
  induction t with
  | nil => simp [tabInsert, tabGet, h.symm]
  | cons x t ih =>
    obtain ⟨a, w⟩ := x
    simp only [tabInsert]
    split
    · simp [tabGet, h.symm]
    · simp [tabGet, ih]

/-- The keys of a table rise strictly. -/
def rising : List (Nat × α) → Prop
  | [] => True
  | (a, _) :: t => (∀ x ∈ t, a < x.1) ∧ rising t

theorem tabGet_eq_default (d : α) {k : Nat} {t : List (Nat × α)} (h : ∀ x ∈ t, x.1 ≠ k) : tabGet d k t = d := by
  induction t with
  | nil => rfl
  | cons x t ih =>
    obtain ⟨a, w⟩ := x
    simp only [tabGet]
    rw [if_neg (h (a, w) (by simp))]
    exact ih fun x hx => h x (by simp [hx])

theorem mem_tabErase {k : Nat} {t : List (Nat × α)} {x : Nat × α} : x ∈ tabErase k t ↔ x ∈ t ∧ x.1 ≠ k := by
  induction t with
  | nil => simp [tabErase]
  | cons y t ih =>
    obtain ⟨a, w⟩ := y
    simp only [tabErase]
    split
    · rename_i h
      rw [ih]
      constructor
      · rintro ⟨h1, h2⟩; exact ⟨by simp [h1], h2⟩
      · rintro ⟨h1, h2⟩
        rcases List.mem_cons.1 h1 with rfl | h1
        · exact absurd h h2
        · exact ⟨h1, h2⟩
    · rename_i h
      rw [List.mem_cons, ih, List.mem_cons]
      constructor
      · rintro (rfl | ⟨h1, h2⟩)
        · exact ⟨.inl rfl, h⟩
        · exact ⟨.inr h1, h2⟩
      · rintro ⟨rfl | h1, h2⟩
        · exact .inl rfl
        · exact .inr ⟨h1, h2⟩

/-- Reads the entry just inserted, where the key was not listed. -/
theorem tabGet_tabInsert_self (d : α) (k : Nat) (v : α) {t : List (Nat × α)} (h : ∀ x ∈ t, x.1 ≠ k) : tabGet d k (tabInsert k v t) = v := by
  induction t with
  | nil => simp [tabInsert, tabGet]
  | cons x t ih =>
    obtain ⟨a, w⟩ := x
    simp only [tabInsert]
    split
    · simp [tabGet]
    · have ha : a ≠ k := h (a, w) (by simp)
      simp [tabGet, ha, ih fun x hx => h x (by simp [hx])]

/-- A read after a write to the same key gives the value written. -/
@[simp] theorem tabGet_tabSet_self [DecidableEq α] (d : α) (k : Nat) (v : α) (t : List (Nat × α)) : tabGet d k (tabSet d k v t) = v := by
  unfold tabSet
  split
  · rename_i h; rw [tabGet_tabErase_self, h]
  · exact tabGet_tabInsert_self d k v fun x hx => (mem_tabErase.1 hx).2

/-- A write leaves every other key alone. -/
theorem tabGet_tabSet_ne [DecidableEq α] (d d' : α) {k j : Nat} (h : j ≠ k) (v : α) (t : List (Nat × α)) :
    tabGet d j (tabSet d' k v t) = tabGet d j t := by
  unfold tabSet
  split
  · exact tabGet_tabErase_ne d h t
  · rw [tabGet_tabInsert_ne d h, tabGet_tabErase_ne d h]

theorem tabGet_tabKeep_true (d : α) {p : Nat → Bool} {k : Nat} (h : p k = true) (t : List (Nat × α)) : tabGet d k (tabKeep p t) = tabGet d k t := by
  induction t with
  | nil => rfl
  | cons x t ih =>
    obtain ⟨a, w⟩ := x
    simp only [tabKeep]
    split
    · simp [tabGet, ih]
    · rename_i hp
      have : a ≠ k := by rintro rfl; exact hp h
      simp [tabGet, this, ih]

theorem tabGet_tabKeep_false (d : α) {p : Nat → Bool} {k : Nat} (h : p k = false) (t : List (Nat × α)) : tabGet d k (tabKeep p t) = d := by
  induction t with
  | nil => rfl
  | cons x t ih =>
    obtain ⟨a, w⟩ := x
    simp only [tabKeep]
    split
    · rename_i hp
      have : a ≠ k := by rintro rfl; simp [h] at hp
      simp [tabGet, this, ih]
    · exact ih

/-! ### The canonical form -/

/-- The canonical form as two facts. -/
theorem tabWf_iff [DecidableEq α] (d : α) (t : List (Nat × α)) : tabWf d t = true ↔ rising t ∧ ∀ x ∈ t, x.2 ≠ d := by
  induction t with
  | nil => simp [tabWf, rising]
  | cons x t ih =>
    obtain ⟨a, v⟩ := x
    cases t with
    | nil => simp [tabWf, rising]
    | cons y t =>
      obtain ⟨b, w⟩ := y
      simp only [tabWf, Bool.and_eq_true, decide_eq_true_eq, ih, rising, List.mem_cons, forall_eq_or_imp]
      constructor
      · rintro ⟨⟨h1, h2⟩, ⟨h3, h4⟩, h5, h6⟩
        exact ⟨⟨⟨h1, fun x hx => lt_trans h1 (h3 x hx)⟩, h3, h4⟩, h2, h5, h6⟩
      · rintro ⟨⟨⟨h1, _⟩, h3, h4⟩, h2, h5, h6⟩
        exact ⟨⟨h1, h2⟩, ⟨h3, h4⟩, h5, h6⟩

theorem rising_tabErase {k : Nat} {t : List (Nat × α)} (h : rising t) : rising (tabErase k t) := by
  induction t with
  | nil => trivial
  | cons x t ih =>
    obtain ⟨a, w⟩ := x
    simp only [tabErase]
    split
    · exact ih h.2
    · exact ⟨fun x hx => h.1 x (mem_tabErase.1 hx).1, ih h.2⟩

theorem mem_tabInsert {k : Nat} {v : α} {t : List (Nat × α)} {x : Nat × α} : x ∈ tabInsert k v t ↔ x = (k, v) ∨ x ∈ t := by
  induction t with
  | nil => simp [tabInsert]
  | cons y t ih =>
    obtain ⟨a, w⟩ := y
    simp only [tabInsert]
    split
    · simp
    · rw [List.mem_cons, ih, List.mem_cons]; tauto

theorem rising_tabInsert {k : Nat} {v : α} {t : List (Nat × α)} (h : rising t) (hk : ∀ x ∈ t, x.1 ≠ k) : rising (tabInsert k v t) := by
  induction t with
  | nil => exact ⟨by simp, trivial⟩
  | cons x t ih =>
    obtain ⟨a, w⟩ := x
    simp only [tabInsert]
    split
    · rename_i hlt
      refine ⟨?_, h⟩
      intro x hx
      rcases List.mem_cons.1 hx with rfl | hx
      · exact hlt
      · exact lt_trans hlt (h.1 x hx)
    · rename_i hlt
      have hak : a ≠ k := hk (a, w) (by simp)
      refine ⟨?_, ih h.2 fun x hx => hk x (by simp [hx])⟩
      intro x hx
      rcases mem_tabInsert.1 hx with rfl | hx
      · simp only; omega
      · exact h.1 x hx

/-- A write keeps the canonical form. -/
theorem tabWf_tabSet [DecidableEq α] {d : α} (k : Nat) (v : α) {t : List (Nat × α)} (h : tabWf d t = true) : tabWf d (tabSet d k v t) = true := by
  rw [tabWf_iff] at h ⊢
  unfold tabSet
  split
  · exact ⟨rising_tabErase h.1, fun x hx => h.2 x (mem_tabErase.1 hx).1⟩
  · rename_i hv
    refine ⟨rising_tabInsert (rising_tabErase h.1) fun x hx => (mem_tabErase.1 hx).2, fun x hx => ?_⟩
    rcases mem_tabInsert.1 hx with rfl | hx
    · exact hv
    · exact h.2 x (mem_tabErase.1 hx).1

theorem mem_tabKeep {p : Nat → Bool} {t : List (Nat × α)} {x : Nat × α} : x ∈ tabKeep p t ↔ x ∈ t ∧ p x.1 = true := by
  induction t with
  | nil => simp [tabKeep]
  | cons y t ih =>
    obtain ⟨a, w⟩ := y
    simp only [tabKeep]
    split
    · rename_i hp
      rw [List.mem_cons, ih, List.mem_cons]
      constructor
      · rintro (rfl | ⟨h1, h2⟩)
        · exact ⟨.inl rfl, hp⟩
        · exact ⟨.inr h1, h2⟩
      · rintro ⟨rfl | h1, h2⟩
        · exact .inl rfl
        · exact .inr ⟨h1, h2⟩
    · rename_i hp
      rw [ih, List.mem_cons]
      constructor
      · rintro ⟨h1, h2⟩; exact ⟨.inr h1, h2⟩
      · rintro ⟨rfl | h1, h2⟩
        · exact absurd h2 hp
        · exact ⟨h1, h2⟩

/-- Keeping some of the keys keeps the canonical form. -/
theorem tabWf_tabKeep [DecidableEq α] {d : α} (p : Nat → Bool) {t : List (Nat × α)} (h : tabWf d t = true) : tabWf d (tabKeep p t) = true := by
  rw [tabWf_iff] at h ⊢
  refine ⟨?_, fun x hx => h.2 x (mem_tabKeep.1 hx).1⟩
  have h1 := h.1
  clear h
  induction t with
  | nil => trivial
  | cons x t ih =>
    obtain ⟨a, w⟩ := x
    simp only [tabKeep]
    split
    · exact ⟨fun x hx => h1.1 x (mem_tabKeep.1 hx).1, ih h1.2⟩
    · exact ih h1.2

end Sys2Proof.Machine
end

