-- ==== Sys2Proof/Laws/Memory.lean ====
section
/-! SUPPORT. Laws of external memory: every operation keeps the canonical form, a byte reads as last written, and a write leaves every other
byte alone. -/

namespace Sys2Proof.Machine

/-- Memory at reset is in canonical form. -/
theorem State.reset_mem_wf : State.reset.mem.wf := rfl

/-! ### The canonical form -/

theorem Memory.putBytes_wf (l : Bytes) : ∀ (m : Memory) (a : Nat), m.wf → (m.putBytes a l).wf := by
  induction l with
  | nil => intro m a h; exact h
  | cons b t ih => intro m a h; exact ih _ _ (tabWf_tabSet a b h)

@[simp] theorem Memory.markLines_cells (m : Memory) (a n : Nat) (p : Bool) : (m.markLines a n p).cells = m.cells := rfl

theorem Memory.markLines_wf {m : Memory} (h : m.wf) (a n : Nat) (p : Bool) : (m.markLines a n p).wf := h

theorem Memory.write_wf {m : Memory} (h : m.wf) (a : Nat) (l : Bytes) (p : Bool) : (m.write a l p).wf := Memory.putBytes_wf l m a h

theorem Memory.zeroRange_wf {m : Memory} (h : m.wf) (a n : Nat) : (m.zeroRange a n).wf := tabWf_tabKeep _ h

theorem Memory.zeroCtl_wf {m : Memory} (h : m.wf) (c : Nat) : (m.zeroCtl c).wf := tabWf_tabKeep _ h

/-- A fold of table writes keeps the canonical form. -/
theorem tabWf_foldl {α β : Type} [DecidableEq α] {d : α} (f : List (Nat × α) → β → List (Nat × α))
    (hf : ∀ t x, tabWf d t = true → tabWf d (f t x) = true) (l : List β) : ∀ t, tabWf d t = true → tabWf d (l.foldl f t) = true := by
  induction l with
  | nil => intro t h; exact h
  | cons x l ih => intro t h; exact ih _ (hf t x h)

theorem Memory.copyPage_wf {m : Memory} (h : m.wf) (src dst : Nat) : (m.copyPage src dst).wf :=
  tabWf_foldl _ (fun _ x ht => tabWf_tabSet _ x.2 ht) _ _ (Memory.zeroRange_wf h dst (2 ^ 21))

@[simp] theorem State.setCline_mem (s : State) (n line : Nat) (x : CacheLine) : (s.setCline n line x).mem = s.mem := rfl
@[simp] theorem State.setDir_mem (s : State) (line : Nat) (x : DirEnt) : (s.setDir line x).mem = s.mem := rfl

theorem State.writeBack_wf {s : State} (h : s.mem.wf) (line data : Nat) : (s.writeBack line data).mem.wf := Memory.write_wf h _ _ _

/-- A fold of operations that keep the canonical form keeps it. -/
theorem State.foldl_wf {β : Type} {g : State → β → State} (hg : ∀ s x, s.mem.wf → (g s x).mem.wf) (l : List β) :
    ∀ s : State, s.mem.wf → (l.foldl g s).mem.wf := by
  induction l with
  | nil => intro s h; exact h
  | cons x l ih => intro s h; rw [List.foldl_cons]; exact ih _ (hg s x h)

@[simp] theorem State.sendRetry_mem (s : State) (n line : Nat) : (s.sendRetry n line).mem = s.mem := rfl

/-- A fold of operations that leave memory alone leaves it alone. -/
theorem State.foldl_mem {β : Type} {g : State → β → State} (hg : ∀ s x, (g s x).mem = s.mem) (l : List β) :
    ∀ s : State, (l.foldl g s).mem = s.mem := by
  induction l with
  | nil => intro s; rfl
  | cons x l ih => intro s; rw [List.foldl_cons, ih, hg]

/-- The directory's service of a request changes no byte of memory. -/
@[simp] theorem State.dirServe_mem (s : State) (n line : Nat) (own held : Bool) : (s.dirServe n line own held).mem = s.mem := by
  unfold State.dirServe
  dsimp only
  split
  · rfl
  · split
    · rfl
    · split
      · rfl
      · exact State.foldl_mem (g := fun s c => s.coh ⟨.inv, c, line, 0⟩) (fun _ _ => rfl) _ _

@[simp] theorem State.dirHeld_mem (s : State) (line k : Nat) : (s.dirHeld line k).mem = s.mem := by
  induction k generalizing s with
  | zero => rfl
  | succ k ih =>
    unfold State.dirHeld
    dsimp only
    split
    · split
      · rfl
      · rw [ih, State.dirServe_mem]
    · rfl

/-- A line that is no longer busy: no byte of memory changes. -/
@[simp] theorem State.dirResolve_mem (s : State) (line : Nat) : (s.dirResolve line).mem = s.mem := by
  unfold State.dirResolve
  dsimp only
  split
  · rfl
  · split
    · rw [State.foldl_mem (g := fun s (x : Nat × Bool) => s.sendRetry x.1 line) (fun _ _ => rfl)]; simp
    · split
      · rfl
      · rw [State.foldl_mem (g := fun s (x : Nat × Bool) => s.sendRetry x.1 line) (fun _ _ => rfl)]; simp

theorem State.dropCopies_wf {s : State} (h : s.mem.wf) (line : Nat) : (s.dropCopies line).mem.wf := by
  unfold State.dropCopies
  apply State.foldl_wf
  · intro s n hs
    split
    · exact hs
    · exact hs
  · exact h

@[simp] theorem State.withdraw_mem (s : State) (line : Nat) : (s.withdraw line).mem = s.mem := by
  unfold State.withdraw
  exact State.foldl_mem (g := fun s (n : Nat) => s.sendRetry n line) (fun _ _ => rfl) _ _

/-- Taking a control-region line back from the caches keeps the canonical form. -/
theorem State.recallNow_wf {s : State} (h : s.mem.wf) (line : Nat) : (s.recallNow line).mem.wf := by
  unfold State.recallNow
  split
  · rw [State.withdraw_mem]
    exact State.dropCopies_wf (State.writeBack_wf h line _) line
  · rw [State.withdraw_mem]
    exact State.dropCopies_wf h line

/-- A write at a device address keeps the canonical form. -/
theorem State.memWrite_wf {s : State} (h : s.mem.wf) (da : Nat) (l : Bytes) (p : Bool) : (s.memWrite da l p).mem.wf := by
  unfold State.memWrite
  split
  · dsimp only
    rw [State.foldl_mem (g := fun s x => s.dirResolve x) (fun _ _ => State.dirResolve_mem _ _)]
    exact Memory.write_wf (State.foldl_wf (fun s i hs => State.recallNow_wf hs _) _ s h) da l p
  · exact Memory.write_wf h da l p

/-! ### Reading after a write -/

/-- Where a range is written, its bytes read as written. -/
theorem Memory.byte_putBytes (l : Bytes) : ∀ (m : Memory) (a k : Nat),
    (m.putBytes a l).byte k = if a ≤ k ∧ k < a + l.length then l.getD (k - a) 0 else m.byte k := by
  induction l with
  | nil => intro m a k; simp [Memory.putBytes, show ¬ (a ≤ k ∧ k < a) by omega]
  | cons b t ih =>
    intro m a k
    rw [Memory.putBytes, ih]
    by_cases h : k = a
    · subst h; simp [Memory.byte]
    · have e : (Memory.byte { m with cells := tabSet 0 a b m.cells } k) = m.byte k := tabGet_tabSet_ne 0 0 h b m.cells
      rw [e]
      by_cases h2 : a + 1 ≤ k ∧ k < a + 1 + t.length
      · rw [if_pos h2, if_pos (by simp only [List.length_cons]; omega)]
        obtain ⟨j, rfl⟩ : ∃ j, k = a + 1 + j := ⟨k - (a + 1), by omega⟩
        simp [show a + 1 + j - (a + 1) = j by omega, show a + 1 + j - a = j + 1 by omega]
      · rw [if_neg h2, if_neg (by simp only [List.length_cons]; omega)]

@[simp] theorem Memory.byte_markLines (m : Memory) (a n k : Nat) (p : Bool) : (m.markLines a n p).byte k = m.byte k := rfl

/-- A write of bytes: the bytes written read as written, every other byte as before. -/
theorem Memory.byte_write (m : Memory) (a : Nat) (l : Bytes) (p : Bool) (k : Nat) :
    (m.write a l p).byte k = if a ≤ k ∧ k < a + l.length then l.getD (k - a) 0 else m.byte k := Memory.byte_putBytes l m a k

/-- A zero fill: zero inside the range, every other byte as before. -/
theorem Memory.byte_zeroRange (m : Memory) (a n k : Nat) : (m.zeroRange a n).byte k = if a ≤ k ∧ k < a + n then 0 else m.byte k := by
  unfold Memory.byte Memory.zeroRange
  split
  · next h => exact tabGet_tabKeep_false 0 (by simp [h.1, h.2]) _
  · next h => exact tabGet_tabKeep_true 0 (by simp only [Bool.not_eq_true', Bool.and_eq_false_imp, decide_eq_true_eq, decide_eq_false_iff_not]; omega) _

end Sys2Proof.Machine
end

