-- ==== Sys2Proof/Laws/State.lean ====
section
/-! SUPPORT. One lemma for each field of the state under each update of Ops.lean: what an update leaves alone, and what it writes. -/

namespace Sys2Proof.Machine

variable (s : State)

/-! ### `State.setReg` -/

@[simp] theorem State.setReg_pending (f : Fld) (i j v : Nat) : (s.setReg f i j v).pending = s.pending := rfl
@[simp] theorem State.setReg_fuses (f : Fld) (i j v : Nat) : (s.setReg f i j v).fuses = s.fuses := rfl
@[simp] theorem State.setReg_env (f : Fld) (i j v : Nat) : (s.setReg f i j v).env = s.env := rfl
@[simp] theorem State.setReg_pend (f : Fld) (i j v : Nat) : (s.setReg f i j v).pend = s.pend := rfl
@[simp] theorem State.setReg_capt (f : Fld) (i j v : Nat) : (s.setReg f i j v).capt = s.capt := rfl
@[simp] theorem State.setReg_old (f : Fld) (i j v : Nat) : (s.setReg f i j v).old = s.old := rfl
@[simp] theorem State.setReg_pow (f : Fld) (i j v : Nat) : (s.setReg f i j v).pow = s.pow := rfl
@[simp] theorem State.setReg_cores (f : Fld) (i j v : Nat) : (s.setReg f i j v).cores = s.cores := rfl
@[simp] theorem State.setReg_mem (f : Fld) (i j v : Nat) : (s.setReg f i j v).mem = s.mem := rfl
@[simp] theorem State.setReg_ms (f : Fld) (i j v : Nat) : (s.setReg f i j v).ms = s.ms := rfl
@[simp] theorem State.setReg_net (f : Fld) (i j v : Nat) : (s.setReg f i j v).net = s.net := rfl
@[simp] theorem State.setReg_nextTag (f : Fld) (i j v : Nat) : (s.setReg f i j v).nextTag = s.nextTag := rfl
@[simp] theorem State.setReg_waiters (f : Fld) (i j v : Nat) : (s.setReg f i j v).waiters = s.waiters := rfl
@[simp] theorem State.setReg_links (f : Fld) (i j v : Nat) : (s.setReg f i j v).links = s.links := rfl
@[simp] theorem State.setReg_tows (f : Fld) (i j v : Nat) : (s.setReg f i j v).tows = s.tows := rfl
@[simp] theorem State.setReg_host (f : Fld) (i j v : Nat) : (s.setReg f i j v).host = s.host := rfl
@[simp] theorem State.setReg_errs (f : Fld) (i j v : Nat) : (s.setReg f i j v).errs = s.errs := rfl
@[simp] theorem State.setReg_errOrd (f : Fld) (i j v : Nat) : (s.setReg f i j v).errOrd = s.errOrd := rfl
@[simp] theorem State.setReg_corr (f : Fld) (i j v : Nat) : (s.setReg f i j v).corr = s.corr := rfl
@[simp] theorem State.setReg_inbox (f : Fld) (i j v : Nat) : (s.setReg f i j v).inbox = s.inbox := rfl
@[simp] theorem State.setReg_kb (f : Fld) (i j v : Nat) : (s.setReg f i j v).kb = s.kb := rfl
@[simp] theorem State.setReg_tap (f : Fld) (i j v : Nat) : (s.setReg f i j v).tap = s.tap := rfl
@[simp] theorem State.setReg_free (f : Fld) (i j v : Nat) : (s.setReg f i j v).free = s.free := rfl
@[simp] theorem State.setReg_out (f : Fld) (i j v : Nat) : (s.setReg f i j v).out = s.out := rfl

/-! ### `State.setCore` -/

@[simp] theorem State.setCore_pending (u : Nat) (c : Core) : (s.setCore u c).pending = s.pending := rfl
@[simp] theorem State.setCore_regs (u : Nat) (c : Core) : (s.setCore u c).regs = s.regs := rfl
@[simp] theorem State.setCore_fuses (u : Nat) (c : Core) : (s.setCore u c).fuses = s.fuses := rfl
@[simp] theorem State.setCore_env (u : Nat) (c : Core) : (s.setCore u c).env = s.env := rfl
@[simp] theorem State.setCore_pend (u : Nat) (c : Core) : (s.setCore u c).pend = s.pend := rfl
@[simp] theorem State.setCore_capt (u : Nat) (c : Core) : (s.setCore u c).capt = s.capt := rfl
@[simp] theorem State.setCore_old (u : Nat) (c : Core) : (s.setCore u c).old = s.old := rfl
@[simp] theorem State.setCore_pow (u : Nat) (c : Core) : (s.setCore u c).pow = s.pow := rfl
@[simp] theorem State.setCore_cores (u : Nat) (c : Core) : (s.setCore u c).cores = tabSet {} u c s.cores := rfl
@[simp] theorem State.setCore_mem (u : Nat) (c : Core) : (s.setCore u c).mem = s.mem := rfl
@[simp] theorem State.setCore_ms (u : Nat) (c : Core) : (s.setCore u c).ms = s.ms := rfl
@[simp] theorem State.setCore_net (u : Nat) (c : Core) : (s.setCore u c).net = s.net := rfl
@[simp] theorem State.setCore_nextTag (u : Nat) (c : Core) : (s.setCore u c).nextTag = s.nextTag := rfl
@[simp] theorem State.setCore_waiters (u : Nat) (c : Core) : (s.setCore u c).waiters = s.waiters := rfl
@[simp] theorem State.setCore_links (u : Nat) (c : Core) : (s.setCore u c).links = s.links := rfl
@[simp] theorem State.setCore_tows (u : Nat) (c : Core) : (s.setCore u c).tows = s.tows := rfl
@[simp] theorem State.setCore_host (u : Nat) (c : Core) : (s.setCore u c).host = s.host := rfl
@[simp] theorem State.setCore_errs (u : Nat) (c : Core) : (s.setCore u c).errs = s.errs := rfl
@[simp] theorem State.setCore_errOrd (u : Nat) (c : Core) : (s.setCore u c).errOrd = s.errOrd := rfl
@[simp] theorem State.setCore_corr (u : Nat) (c : Core) : (s.setCore u c).corr = s.corr := rfl
@[simp] theorem State.setCore_inbox (u : Nat) (c : Core) : (s.setCore u c).inbox = s.inbox := rfl
@[simp] theorem State.setCore_kb (u : Nat) (c : Core) : (s.setCore u c).kb = s.kb := rfl
@[simp] theorem State.setCore_tap (u : Nat) (c : Core) : (s.setCore u c).tap = s.tap := rfl
@[simp] theorem State.setCore_free (u : Nat) (c : Core) : (s.setCore u c).free = s.free := rfl
@[simp] theorem State.setCore_out (u : Nat) (c : Core) : (s.setCore u c).out = s.out := rfl

/-! ### `State.setLink` -/

@[simp] theorem State.setLink_pending (l : Nat) (k : Link) : (s.setLink l k).pending = s.pending := rfl
@[simp] theorem State.setLink_regs (l : Nat) (k : Link) : (s.setLink l k).regs = s.regs := rfl
@[simp] theorem State.setLink_fuses (l : Nat) (k : Link) : (s.setLink l k).fuses = s.fuses := rfl
@[simp] theorem State.setLink_env (l : Nat) (k : Link) : (s.setLink l k).env = s.env := rfl
@[simp] theorem State.setLink_pend (l : Nat) (k : Link) : (s.setLink l k).pend = s.pend := rfl
@[simp] theorem State.setLink_capt (l : Nat) (k : Link) : (s.setLink l k).capt = s.capt := rfl
@[simp] theorem State.setLink_old (l : Nat) (k : Link) : (s.setLink l k).old = s.old := rfl
@[simp] theorem State.setLink_pow (l : Nat) (k : Link) : (s.setLink l k).pow = s.pow := rfl
@[simp] theorem State.setLink_cores (l : Nat) (k : Link) : (s.setLink l k).cores = s.cores := rfl
@[simp] theorem State.setLink_mem (l : Nat) (k : Link) : (s.setLink l k).mem = s.mem := rfl
@[simp] theorem State.setLink_ms (l : Nat) (k : Link) : (s.setLink l k).ms = s.ms := rfl
@[simp] theorem State.setLink_net (l : Nat) (k : Link) : (s.setLink l k).net = s.net := rfl
@[simp] theorem State.setLink_nextTag (l : Nat) (k : Link) : (s.setLink l k).nextTag = s.nextTag := rfl
@[simp] theorem State.setLink_waiters (l : Nat) (k : Link) : (s.setLink l k).waiters = s.waiters := rfl
@[simp] theorem State.setLink_links (l : Nat) (k : Link) : (s.setLink l k).links = tabSet {} l k s.links := rfl
@[simp] theorem State.setLink_tows (l : Nat) (k : Link) : (s.setLink l k).tows = s.tows := rfl
@[simp] theorem State.setLink_host (l : Nat) (k : Link) : (s.setLink l k).host = s.host := rfl
@[simp] theorem State.setLink_errs (l : Nat) (k : Link) : (s.setLink l k).errs = s.errs := rfl
@[simp] theorem State.setLink_errOrd (l : Nat) (k : Link) : (s.setLink l k).errOrd = s.errOrd := rfl
@[simp] theorem State.setLink_corr (l : Nat) (k : Link) : (s.setLink l k).corr = s.corr := rfl
@[simp] theorem State.setLink_inbox (l : Nat) (k : Link) : (s.setLink l k).inbox = s.inbox := rfl
@[simp] theorem State.setLink_kb (l : Nat) (k : Link) : (s.setLink l k).kb = s.kb := rfl
@[simp] theorem State.setLink_tap (l : Nat) (k : Link) : (s.setLink l k).tap = s.tap := rfl
@[simp] theorem State.setLink_free (l : Nat) (k : Link) : (s.setLink l k).free = s.free := rfl
@[simp] theorem State.setLink_out (l : Nat) (k : Link) : (s.setLink l k).out = s.out := rfl

/-! ### `State.setTow` -/

@[simp] theorem State.setTow_pending (e : Nat) (x : Tow) : (s.setTow e x).pending = s.pending := rfl
@[simp] theorem State.setTow_regs (e : Nat) (x : Tow) : (s.setTow e x).regs = s.regs := rfl
@[simp] theorem State.setTow_fuses (e : Nat) (x : Tow) : (s.setTow e x).fuses = s.fuses := rfl
@[simp] theorem State.setTow_env (e : Nat) (x : Tow) : (s.setTow e x).env = s.env := rfl
@[simp] theorem State.setTow_pend (e : Nat) (x : Tow) : (s.setTow e x).pend = s.pend := rfl
@[simp] theorem State.setTow_capt (e : Nat) (x : Tow) : (s.setTow e x).capt = s.capt := rfl
@[simp] theorem State.setTow_old (e : Nat) (x : Tow) : (s.setTow e x).old = s.old := rfl
@[simp] theorem State.setTow_pow (e : Nat) (x : Tow) : (s.setTow e x).pow = s.pow := rfl
@[simp] theorem State.setTow_cores (e : Nat) (x : Tow) : (s.setTow e x).cores = s.cores := rfl
@[simp] theorem State.setTow_mem (e : Nat) (x : Tow) : (s.setTow e x).mem = s.mem := rfl
@[simp] theorem State.setTow_ms (e : Nat) (x : Tow) : (s.setTow e x).ms = s.ms := rfl
@[simp] theorem State.setTow_net (e : Nat) (x : Tow) : (s.setTow e x).net = s.net := rfl
@[simp] theorem State.setTow_nextTag (e : Nat) (x : Tow) : (s.setTow e x).nextTag = s.nextTag := rfl
@[simp] theorem State.setTow_waiters (e : Nat) (x : Tow) : (s.setTow e x).waiters = s.waiters := rfl
@[simp] theorem State.setTow_links (e : Nat) (x : Tow) : (s.setTow e x).links = s.links := rfl
@[simp] theorem State.setTow_tows (e : Nat) (x : Tow) : (s.setTow e x).tows = tabSet {} e x s.tows := rfl
@[simp] theorem State.setTow_host (e : Nat) (x : Tow) : (s.setTow e x).host = s.host := rfl
@[simp] theorem State.setTow_errs (e : Nat) (x : Tow) : (s.setTow e x).errs = s.errs := rfl
@[simp] theorem State.setTow_errOrd (e : Nat) (x : Tow) : (s.setTow e x).errOrd = s.errOrd := rfl
@[simp] theorem State.setTow_corr (e : Nat) (x : Tow) : (s.setTow e x).corr = s.corr := rfl
@[simp] theorem State.setTow_inbox (e : Nat) (x : Tow) : (s.setTow e x).inbox = s.inbox := rfl
@[simp] theorem State.setTow_kb (e : Nat) (x : Tow) : (s.setTow e x).kb = s.kb := rfl
@[simp] theorem State.setTow_tap (e : Nat) (x : Tow) : (s.setTow e x).tap = s.tap := rfl
@[simp] theorem State.setTow_free (e : Nat) (x : Tow) : (s.setTow e x).free = s.free := rfl
@[simp] theorem State.setTow_out (e : Nat) (x : Tow) : (s.setTow e x).out = s.out := rfl

/-! ### `State.setPart` -/

@[simp] theorem State.setPart_pending (p : Nat) (x : Part) : (s.setPart p x).pending = s.pending := rfl
@[simp] theorem State.setPart_regs (p : Nat) (x : Part) : (s.setPart p x).regs = s.regs := rfl
@[simp] theorem State.setPart_fuses (p : Nat) (x : Part) : (s.setPart p x).fuses = s.fuses := rfl
@[simp] theorem State.setPart_env (p : Nat) (x : Part) : (s.setPart p x).env = s.env := rfl
@[simp] theorem State.setPart_pend (p : Nat) (x : Part) : (s.setPart p x).pend = s.pend := rfl
@[simp] theorem State.setPart_capt (p : Nat) (x : Part) : (s.setPart p x).capt = s.capt := rfl
@[simp] theorem State.setPart_old (p : Nat) (x : Part) : (s.setPart p x).old = s.old := rfl
@[simp] theorem State.setPart_pow (p : Nat) (x : Part) : (s.setPart p x).pow = s.pow := rfl
@[simp] theorem State.setPart_cores (p : Nat) (x : Part) : (s.setPart p x).cores = s.cores := rfl
@[simp] theorem State.setPart_mem (p : Nat) (x : Part) : (s.setPart p x).mem = s.mem := rfl
@[simp] theorem State.setPart_ms (p : Nat) (x : Part) : (s.setPart p x).ms = s.ms := rfl
@[simp] theorem State.setPart_net (p : Nat) (x : Part) : (s.setPart p x).net = s.net := rfl
@[simp] theorem State.setPart_nextTag (p : Nat) (x : Part) : (s.setPart p x).nextTag = s.nextTag := rfl
@[simp] theorem State.setPart_waiters (p : Nat) (x : Part) : (s.setPart p x).waiters = s.waiters := rfl
@[simp] theorem State.setPart_links (p : Nat) (x : Part) : (s.setPart p x).links = s.links := rfl
@[simp] theorem State.setPart_tows (p : Nat) (x : Part) : (s.setPart p x).tows = s.tows := rfl
@[simp] theorem State.setPart_errs (p : Nat) (x : Part) : (s.setPart p x).errs = s.errs := rfl
@[simp] theorem State.setPart_errOrd (p : Nat) (x : Part) : (s.setPart p x).errOrd = s.errOrd := rfl
@[simp] theorem State.setPart_corr (p : Nat) (x : Part) : (s.setPart p x).corr = s.corr := rfl
@[simp] theorem State.setPart_inbox (p : Nat) (x : Part) : (s.setPart p x).inbox = s.inbox := rfl
@[simp] theorem State.setPart_kb (p : Nat) (x : Part) : (s.setPart p x).kb = s.kb := rfl
@[simp] theorem State.setPart_tap (p : Nat) (x : Part) : (s.setPart p x).tap = s.tap := rfl
@[simp] theorem State.setPart_free (p : Nat) (x : Part) : (s.setPart p x).free = s.free := rfl
@[simp] theorem State.setPart_out (p : Nat) (x : Part) : (s.setPart p x).out = s.out := rfl

/-! ### `State.emit` -/

@[simp] theorem State.emit_pending (o : Out) : (s.emit o).pending = s.pending := rfl
@[simp] theorem State.emit_regs (o : Out) : (s.emit o).regs = s.regs := rfl
@[simp] theorem State.emit_fuses (o : Out) : (s.emit o).fuses = s.fuses := rfl
@[simp] theorem State.emit_env (o : Out) : (s.emit o).env = s.env := rfl
@[simp] theorem State.emit_pend (o : Out) : (s.emit o).pend = s.pend := rfl
@[simp] theorem State.emit_capt (o : Out) : (s.emit o).capt = s.capt := rfl
@[simp] theorem State.emit_old (o : Out) : (s.emit o).old = s.old := rfl
@[simp] theorem State.emit_pow (o : Out) : (s.emit o).pow = s.pow := rfl
@[simp] theorem State.emit_cores (o : Out) : (s.emit o).cores = s.cores := rfl
@[simp] theorem State.emit_mem (o : Out) : (s.emit o).mem = s.mem := rfl
@[simp] theorem State.emit_ms (o : Out) : (s.emit o).ms = s.ms := rfl
@[simp] theorem State.emit_net (o : Out) : (s.emit o).net = s.net := rfl
@[simp] theorem State.emit_nextTag (o : Out) : (s.emit o).nextTag = s.nextTag := rfl
@[simp] theorem State.emit_waiters (o : Out) : (s.emit o).waiters = s.waiters := rfl
@[simp] theorem State.emit_links (o : Out) : (s.emit o).links = s.links := rfl
@[simp] theorem State.emit_tows (o : Out) : (s.emit o).tows = s.tows := rfl
@[simp] theorem State.emit_host (o : Out) : (s.emit o).host = s.host := rfl
@[simp] theorem State.emit_errs (o : Out) : (s.emit o).errs = s.errs := rfl
@[simp] theorem State.emit_errOrd (o : Out) : (s.emit o).errOrd = s.errOrd := rfl
@[simp] theorem State.emit_corr (o : Out) : (s.emit o).corr = s.corr := rfl
@[simp] theorem State.emit_inbox (o : Out) : (s.emit o).inbox = s.inbox := rfl
@[simp] theorem State.emit_kb (o : Out) : (s.emit o).kb = s.kb := rfl
@[simp] theorem State.emit_tap (o : Out) : (s.emit o).tap = s.tap := rfl
@[simp] theorem State.emit_free (o : Out) : (s.emit o).free = s.free := rfl
@[simp] theorem State.emit_out (o : Out) : (s.emit o).out = s.out ++ [o] := rfl

/-! ### `State.send` -/

@[simp] theorem State.send_pending (m : Msg) : (s.send m).pending = s.pending := rfl
@[simp] theorem State.send_regs (m : Msg) : (s.send m).regs = s.regs := rfl
@[simp] theorem State.send_fuses (m : Msg) : (s.send m).fuses = s.fuses := rfl
@[simp] theorem State.send_env (m : Msg) : (s.send m).env = s.env := rfl
@[simp] theorem State.send_pend (m : Msg) : (s.send m).pend = s.pend := rfl
@[simp] theorem State.send_capt (m : Msg) : (s.send m).capt = s.capt := rfl
@[simp] theorem State.send_old (m : Msg) : (s.send m).old = s.old := rfl
@[simp] theorem State.send_pow (m : Msg) : (s.send m).pow = s.pow := rfl
@[simp] theorem State.send_cores (m : Msg) : (s.send m).cores = s.cores := rfl
@[simp] theorem State.send_mem (m : Msg) : (s.send m).mem = s.mem := rfl
@[simp] theorem State.send_ms (m : Msg) : (s.send m).ms = s.ms := rfl
@[simp] theorem State.send_net (m : Msg) : (s.send m).net = s.net ++ [m] := rfl
@[simp] theorem State.send_nextTag (m : Msg) : (s.send m).nextTag = s.nextTag := rfl
@[simp] theorem State.send_waiters (m : Msg) : (s.send m).waiters = s.waiters := rfl
@[simp] theorem State.send_links (m : Msg) : (s.send m).links = s.links := rfl
@[simp] theorem State.send_tows (m : Msg) : (s.send m).tows = s.tows := rfl
@[simp] theorem State.send_host (m : Msg) : (s.send m).host = s.host := rfl
@[simp] theorem State.send_errs (m : Msg) : (s.send m).errs = s.errs := rfl
@[simp] theorem State.send_errOrd (m : Msg) : (s.send m).errOrd = s.errOrd := rfl
@[simp] theorem State.send_corr (m : Msg) : (s.send m).corr = s.corr := rfl
@[simp] theorem State.send_inbox (m : Msg) : (s.send m).inbox = s.inbox := rfl
@[simp] theorem State.send_kb (m : Msg) : (s.send m).kb = s.kb := rfl
@[simp] theorem State.send_tap (m : Msg) : (s.send m).tap = s.tap := rfl
@[simp] theorem State.send_free (m : Msg) : (s.send m).free = s.free := rfl
@[simp] theorem State.send_out (m : Msg) : (s.send m).out = s.out := rfl

/-! ### `State.settle` -/

@[simp] theorem State.settle_pending : (s.settle).pending = s.pending := rfl
@[simp] theorem State.settle_regs : (s.settle).regs = s.regs := rfl
@[simp] theorem State.settle_fuses : (s.settle).fuses = s.fuses := rfl
@[simp] theorem State.settle_pend : (s.settle).pend = s.pend := rfl
@[simp] theorem State.settle_capt : (s.settle).capt = s.capt := rfl
@[simp] theorem State.settle_old : (s.settle).old = s.old := rfl
@[simp] theorem State.settle_pow : (s.settle).pow = s.pow := rfl
@[simp] theorem State.settle_cores : (s.settle).cores = s.cores := rfl
@[simp] theorem State.settle_mem : (s.settle).mem = s.mem := rfl
@[simp] theorem State.settle_ms : (s.settle).ms = s.ms := rfl
@[simp] theorem State.settle_net : (s.settle).net = s.net := rfl
@[simp] theorem State.settle_nextTag : (s.settle).nextTag = s.nextTag := rfl
@[simp] theorem State.settle_waiters : (s.settle).waiters = s.waiters := rfl
@[simp] theorem State.settle_links : (s.settle).links = s.links := rfl
@[simp] theorem State.settle_tows : (s.settle).tows = s.tows := rfl
@[simp] theorem State.settle_host : (s.settle).host = s.host := rfl
@[simp] theorem State.settle_errs : (s.settle).errs = s.errs := rfl
@[simp] theorem State.settle_errOrd : (s.settle).errOrd = s.errOrd := rfl
@[simp] theorem State.settle_corr : (s.settle).corr = s.corr := rfl
@[simp] theorem State.settle_inbox : (s.settle).inbox = s.inbox := rfl
@[simp] theorem State.settle_kb : (s.settle).kb = s.kb := rfl
@[simp] theorem State.settle_tap : (s.settle).tap = s.tap := rfl
@[simp] theorem State.settle_free : (s.settle).free = s.free := rfl

end Sys2Proof.Machine
end

