-- ==== Sys2Proof/Laws/Reg.lean ====
section
/-! SUPPORT. Reading a register field, a core, a link, an engine or a partition after a write of one: the written one reads as written, every
other one as before. -/

namespace Sys2Proof.Machine

variable (s : State)

/-! ### Keys of register fields -/

/-- Different fields have different numbers. -/
theorem Fld.ctorIdx_inj {f g : Fld} (h : f.ctorIdx = g.ctorIdx) : f = g := by
  rw [← Fld.ofNat_ctorIdx f, ← Fld.ofNat_ctorIdx g, h]

/-- The key of a copy of a field names the field, the block instance and the copy. -/
theorem Fld.key_inj {f g : Fld} {i i' j j' : Nat} (hi : i < 256) (hj : j < 32768) (hi' : i' < 256) (hj' : j' < 32768) :
    f.key i j = g.key i' j' ↔ f = g ∧ i = i' ∧ j = j' := by
  constructor
  · intro h
    unfold Fld.key at h
    have e : f.ctorIdx = g.ctorIdx := by omega
    exact ⟨Fld.ctorIdx_inj e, by omega, by omega⟩
  · rintro ⟨rfl, rfl, rfl⟩; rfl

/-! ### Register fields -/

/-- A register field depends on the register file and the fuses alone. -/
theorem State.reg_congr {s t : State} (hr : t.regs = s.regs) (hf : t.fuses = s.fuses) (f : Fld) (i j : Nat) :
    t.reg f i j = s.reg f i j := by
  simp only [State.reg, hr, hf]

/-- A register field holds a value of its width. -/
theorem State.reg_lt (f : Fld) (i j : Nat) : s.reg f i j < 2 ^ f.spec.w := Nat.mod_lt _ (Nat.two_pow_pos _)

/-- A written field reads as the written value, cut to its width. -/
@[simp] theorem State.reg_setReg_self (f : Fld) (i j v : Nat) : (s.setReg f i j v).reg f i j = v % 2 ^ f.spec.w := by
  simp [State.reg, State.setReg]

/-- A write of one copy of a field leaves every other copy of every field alone. -/
theorem State.reg_setReg_key {f g : Fld} {i j i' j' : Nat} (h : g.key i' j' ≠ f.key i j) (v : Nat) :
    (s.setReg f i j v).reg g i' j' = s.reg g i' j' := by
  simp only [State.reg, State.setReg]
  rw [tabGet_tabSet_ne _ _ h _ _]

/-- A write of one copy of a field leaves every other copy of every field alone, copies and instances in range. -/
theorem State.reg_setReg_ne {f g : Fld} {i j i' j' : Nat} (hi : i < 256) (hj : j < 32768) (hi' : i' < 256) (hj' : j' < 32768)
    (h : ¬ (g = f ∧ i' = i ∧ j' = j)) (v : Nat) : (s.setReg f i j v).reg g i' j' = s.reg g i' j' :=
  s.reg_setReg_key (fun e => h ((Fld.key_inj hi' hj' hi hj).1 e)) v

/-- A write of a field read back through any copy of any field. -/
theorem State.reg_setReg {f g : Fld} {i j i' j' : Nat} (hi : i < 256) (hj : j < 32768) (hi' : i' < 256) (hj' : j' < 32768) (v : Nat) :
    (s.setReg f i j v).reg g i' j' = if g = f ∧ i' = i ∧ j' = j then v % 2 ^ f.spec.w else s.reg g i' j' := by
  split
  · next h => obtain ⟨rfl, rfl, rfl⟩ := h; simp
  · next h => exact s.reg_setReg_ne hi hj hi' hj' h v

@[simp] theorem State.reg_setCore (u : Nat) (c : Core) (f : Fld) (i j : Nat) : (s.setCore u c).reg f i j = s.reg f i j := rfl
@[simp] theorem State.reg_setLink (l : Nat) (k : Link) (f : Fld) (i j : Nat) : (s.setLink l k).reg f i j = s.reg f i j := rfl
@[simp] theorem State.reg_setTow (e : Nat) (x : Tow) (f : Fld) (i j : Nat) : (s.setTow e x).reg f i j = s.reg f i j := rfl
@[simp] theorem State.reg_setPart (p : Nat) (x : Part) (f : Fld) (i j : Nat) : (s.setPart p x).reg f i j = s.reg f i j := rfl
@[simp] theorem State.reg_emit (o : Out) (f : Fld) (i j : Nat) : (s.emit o).reg f i j = s.reg f i j := rfl
@[simp] theorem State.reg_send (m : Msg) (f : Fld) (i j : Nat) : (s.send m).reg f i j = s.reg f i j := rfl
@[simp] theorem State.reg_settle (f : Fld) (i j : Nat) : s.settle.reg f i j = s.reg f i j := rfl

/-! ### Cores, links, engines, partitions -/

@[simp] theorem State.core_setCore_self (u : Nat) (c : Core) : (s.setCore u c).core u = c := by simp [State.core]
theorem State.core_setCore_ne {u v : Nat} (h : v ≠ u) (c : Core) : (s.setCore u c).core v = s.core v := by
  simp only [State.core, State.setCore_cores]; exact tabGet_tabSet_ne _ _ h _ _
@[simp] theorem State.core_setReg (f : Fld) (i j v u : Nat) : (s.setReg f i j v).core u = s.core u := rfl
@[simp] theorem State.core_setLink (l : Nat) (k : Link) (u : Nat) : (s.setLink l k).core u = s.core u := rfl
@[simp] theorem State.core_setTow (e : Nat) (x : Tow) (u : Nat) : (s.setTow e x).core u = s.core u := rfl
@[simp] theorem State.core_emit (o : Out) (u : Nat) : (s.emit o).core u = s.core u := rfl
@[simp] theorem State.core_send (m : Msg) (u : Nat) : (s.send m).core u = s.core u := rfl
@[simp] theorem State.core_settle (u : Nat) : s.settle.core u = s.core u := rfl

@[simp] theorem State.link_setLink_self (l : Nat) (k : Link) : (s.setLink l k).link l = k := by simp [State.link]
theorem State.link_setLink_ne {l m : Nat} (h : m ≠ l) (k : Link) : (s.setLink l k).link m = s.link m := by
  simp only [State.link, State.setLink_links]; exact tabGet_tabSet_ne _ _ h _ _
@[simp] theorem State.link_setReg (f : Fld) (i j v l : Nat) : (s.setReg f i j v).link l = s.link l := rfl
@[simp] theorem State.link_setCore (u : Nat) (c : Core) (l : Nat) : (s.setCore u c).link l = s.link l := rfl
@[simp] theorem State.link_emit (o : Out) (l : Nat) : (s.emit o).link l = s.link l := rfl
@[simp] theorem State.link_send (m : Msg) (l : Nat) : (s.send m).link l = s.link l := rfl
@[simp] theorem State.link_settle (l : Nat) : s.settle.link l = s.link l := rfl

@[simp] theorem State.tow_setTow_self (e : Nat) (x : Tow) : (s.setTow e x).tow e = x := by simp [State.tow]
theorem State.tow_setTow_ne {e d : Nat} (h : d ≠ e) (x : Tow) : (s.setTow e x).tow d = s.tow d := by
  simp only [State.tow, State.setTow_tows]; exact tabGet_tabSet_ne _ _ h _ _
@[simp] theorem State.tow_setReg (f : Fld) (i j v e : Nat) : (s.setReg f i j v).tow e = s.tow e := rfl
@[simp] theorem State.tow_settle (e : Nat) : s.settle.tow e = s.tow e := rfl

@[simp] theorem State.part_setPart_self (p : Nat) (x : Part) : (s.setPart p x).part p = x := by simp [State.part, State.setPart]
theorem State.part_setPart_ne {p q : Nat} (h : q ≠ p) (x : Part) : (s.setPart p x).part q = s.part q := by
  simp only [State.part, State.setPart]; exact tabGet_tabSet_ne _ _ h _ _
@[simp] theorem State.part_setReg (f : Fld) (i j v p : Nat) : (s.setReg f i j v).part p = s.part p := rfl
@[simp] theorem State.part_settle (p : Nat) : s.settle.part p = s.part p := rfl

/-! ### Interrupts -/

/-- The interrupt messages of a step change the record of sent bits and what leaves the part, and nothing else. -/
theorem State.settle_eq : s.settle = { s with env := { s.env with intLast := s.settle.env.intLast }, out := s.settle.out } := rfl

/-- What leaves the part through the interrupts is messages of the physical function. -/
theorem State.settle_out : ∃ l : List Nat, s.settle.out = s.out ++ l.map (fun i => Out.msix 16 (s.reg .kprIntVec 0 i)) :=
  ⟨_, rfl⟩

end Sys2Proof.Machine
end

