-- ==== Sys2Proof/Laws/Scalar.lean ====
section
/-! SUPPORT. What the shared operations of the scalar instructions can do: counting, issuing, moving on and writing a scalar register. -/

namespace Sys2Proof.Machine

variable {s : State}

/-- A fold of updates that each keep what `P` says of the state keeps it. -/
theorem foldl_keeps {α σ : Type} {P : σ → Prop} {g : σ → α → σ} {l : List α} (h : ∀ x ∈ l, ∀ t, P t → P (g t x)) {t : σ} (ht : P t) :
    P (l.foldl g t) := by
  induction l generalizing t with
  | nil => exact ht
  | cons a l ih =>
    exact ih (fun x hx => h x (List.mem_cons_of_mem _ hx)) (h a (List.mem_cons_self ..) t ht)

/-- Only register fields of `p` differ. -/
def RegsOnly (s t : State) (p : Fld → Nat → Nat → Prop) : Prop :=
  t = { s with regs := t.regs } ∧ ∀ f i j, i < 256 → j < 32768 → ¬ p f i j → t.reg f i j = s.reg f i j

theorem RegsOnly.refl (s : State) (p : Fld → Nat → Nat → Prop) : RegsOnly s s p := ⟨rfl, fun _ _ _ _ _ _ => rfl⟩

theorem RegsOnly.trans {a b c : State} {p : Fld → Nat → Nat → Prop} (h : RegsOnly a b p) (k : RegsOnly b c p) : RegsOnly a c p :=
  ⟨by rw [k.1, h.1], fun f i j hi hj hp => (k.2 f i j hi hj hp).trans (h.2 f i j hi hj hp)⟩

theorem RegsOnly.mono {a b : State} {p q : Fld → Nat → Nat → Prop} (h : RegsOnly a b p) (hq : ∀ f i j, p f i j → q f i j) : RegsOnly a b q :=
  ⟨h.1, fun f i j hi hj hp => h.2 f i j hi hj (fun x => hp (hq f i j x))⟩

/-- A register write changes that field alone. -/
theorem regsOnly_setReg (s : State) {f : Fld} {i j : Nat} (hi : i < 256) (hj : j < 32768) (v : Nat) :
    RegsOnly s (s.setReg f i j v) (fun g i' j' => g = f ∧ i' = i ∧ j' = j) :=
  ⟨rfl, fun _ _ _ hi' hj' h => s.reg_setReg_ne hi hj hi' hj' h v⟩

/-- Counting an event changes the performance counters of that core alone (R816). -/
theorem pmc_regsOnly (s : State) {u : Nat} (hu : u < 256) (code n : Nat) :
    RegsOnly s (s.pmc u code n) (fun f i _ => f = .dbgPmc ∧ i = u) := by
  unfold State.pmc
  refine foldl_keeps (P := fun t => RegsOnly s t _) ?_ (RegsOnly.refl s _)
  intro x hx t ht
  split
  · refine ht.trans ((regsOnly_setReg t hu (by simp at hx; omega) _).mono ?_)
    rintro f i j ⟨rfl, rfl, -⟩; exact ⟨rfl, rfl⟩
  · exact ht

/-- Free cycle counts change the performance counters of that core alone (R816). -/
theorem pmcFree_regsOnly (s : State) {u : Nat} (hu : u < 256) (codes : List Nat) (most : Nat) :
    RegsOnly s (s.pmcFree u codes most) (fun f i _ => f = .dbgPmc ∧ i = u) := by
  unfold State.pmcFree
  refine foldl_keeps (P := fun t => RegsOnly s t _) ?_ (RegsOnly.refl s _)
  intro x hx t ht
  dsimp only
  split
  · refine ht.trans ((regsOnly_setReg t hu (by simp at hx; omega) _).mono ?_)
    rintro f i j ⟨rfl, rfl, -⟩; exact ⟨rfl, rfl⟩
  · exact ht

/-- Only register fields of `p` and core `u` differ. -/
def CoreOnly (s t : State) (u : Nat) (p : Fld → Nat → Nat → Prop) : Prop :=
  t = { s with regs := t.regs, cores := t.cores } ∧ (∀ v, v ≠ u → t.core v = s.core v)
    ∧ ∀ f i j, i < 256 → j < 32768 → ¬ p f i j → t.reg f i j = s.reg f i j

theorem CoreOnly.refl (s : State) (u : Nat) (p : Fld → Nat → Nat → Prop) : CoreOnly s s u p := ⟨rfl, fun _ _ => rfl, fun _ _ _ _ _ _ => rfl⟩

theorem CoreOnly.trans {a b c : State} {u : Nat} {p : Fld → Nat → Nat → Prop} (h : CoreOnly a b u p) (k : CoreOnly b c u p) : CoreOnly a c u p :=
  ⟨by rw [k.1, h.1], fun v hv => (k.2.1 v hv).trans (h.2.1 v hv), fun f i j hi hj hp => (k.2.2 f i j hi hj hp).trans (h.2.2 f i j hi hj hp)⟩

theorem CoreOnly.mono {a b : State} {u : Nat} {p q : Fld → Nat → Nat → Prop} (h : CoreOnly a b u p) (hq : ∀ f i j, p f i j → q f i j) :
    CoreOnly a b u q :=
  ⟨h.1, h.2.1, fun f i j hi hj hp => h.2.2 f i j hi hj (fun x => hp (hq f i j x))⟩

theorem RegsOnly.coreOnly {a b : State} {p : Fld → Nat → Nat → Prop} (h : RegsOnly a b p) (u : Nat) : CoreOnly a b u p :=
  ⟨by rw [h.1], fun v _ => by rw [h.1]; rfl, h.2⟩

theorem RegsOnly.core {a b : State} {p : Fld → Nat → Nat → Prop} (h : RegsOnly a b p) (u : Nat) : b.core u = a.core u := by rw [h.1]; rfl

theorem coreOnly_setCore (s : State) (u : Nat) (c : Core) (p : Fld → Nat → Nat → Prop) : CoreOnly s (s.setCore u c) u p :=
  ⟨rfl, fun _ hv => s.core_setCore_ne hv c, fun _ _ _ _ _ _ => rfl⟩

/-- Core cycles pass: the cycle count and the performance counters (Table 08-10, R816). -/
theorem tick_spec (s : State) {u : Nat} (hu : u < 256) (dt : Nat) :
    CoreOnly s (s.tick u dt) u (fun f i _ => f = .dbgPmc ∧ i = u)
    ∧ (s.tick u dt).core u = { s.core u with cycles := (s.core u).cycles + dt } := by
  have h := (pmc_regsOnly (s.setCore u { s.core u with cycles := (s.core u).cycles + dt }) hu 1 dt).trans
    (pmcFree_regsOnly _ hu [4, 5, 0xB, 0xD] dt)
  exact ⟨(coreOnly_setCore s u _ _).trans (h.coreOnly u), by rw [State.tick, h.core]; simp⟩

/-- A scalar instruction issues: counters, and the halt after a STEP (R810). -/
theorem issued_spec (s : State) {u : Nat} (hu : u < 256) (q : Nat) :
    CoreOnly s (s.issued u false q) u (fun f i _ => i = u ∧ (f = .dbgPmc ∨ (f = .dbgHalted ∧ (s.core u).stepOne = true)))
    ∧ (s.issued u false q).core u = { s.core u with fired := ((s.issued u false q).core u).fired, stepOne := false } := by
  have h := pmc_regsOnly s hu 2 1
  have hc := h.core u
  have h' : CoreOnly s (s.pmc u 2 1) u (fun f i _ => i = u ∧ (f = .dbgPmc ∨ (f = .dbgHalted ∧ (s.core u).stepOne = true))) :=
    (h.coreOnly u).mono (by rintro f i j ⟨rfl, rfl⟩; exact ⟨rfl, .inl rfl⟩)
  have e : s.issued u false q = s.issued u false q := rfl
  conv at e => rhs; unfold State.issued
  simp only [Bool.false_eq_true, if_false] at e
  rw [e]; clear e
  generalize ht : (if (((s.pmc u 2 1).core u).fired && decide ((s.pmc u 2 1).reg .dbgTrigKind u 0 = 1)) = true then
    (s.pmc u 2 1).setCore u { (s.pmc u 2 1).core u with fired := false } else s.pmc u 2 1) = t
  have k : CoreOnly s t u (fun f i _ => i = u ∧ (f = .dbgPmc ∨ (f = .dbgHalted ∧ (s.core u).stepOne = true)))
      ∧ t.core u = { s.core u with fired := (t.core u).fired } := by
    subst ht
    split
    · exact ⟨h'.trans (coreOnly_setCore _ _ _ _), by simp [hc]⟩
    · exact ⟨h', by rw [hc]⟩
  obtain ⟨k1, k2⟩ := k
  have k3 : (t.core u).stepOne = (s.core u).stepOne := by rw [k2]
  by_cases hs : (s.core u).stepOne = true
  · rw [if_pos (by rw [k3, hs])]
    refine ⟨(k1.trans (coreOnly_setCore t u _ _)).trans (((regsOnly_setReg _ hu (by omega) 1).coreOnly u).mono ?_), ?_⟩
    · rintro f i j ⟨rfl, rfl, rfl⟩; exact ⟨rfl, .inr ⟨rfl, hs⟩⟩
    · simp only [State.core_setReg, State.core_setCore_self]; rw [k2]
  · simp only [Bool.not_eq_true] at hs
    rw [if_neg (by rw [k3, hs]; simp)]
    refine ⟨k1, ?_⟩
    rw [k2]; simp [hs]

/-- A scalar register reads as written, s0 as 0; every other register field is as before (R355). -/
theorem setSreg_spec (s : State) {u n : Nat} (hu : u < 256) (hn : n < 32) (v : Nat) :
    RegsOnly s (s.setSreg u n v) (fun f i j => f = .coreSreg ∧ i = u ∧ j = n ∧ j ≠ 0)
    ∧ (s.setSreg u n v).sreg u n = if n = 0 then 0 else v % 2 ^ 64 := by
  unfold State.setSreg State.sreg
  split
  · exact ⟨RegsOnly.refl _ _, by simp⟩
  · next h =>
    refine ⟨(regsOnly_setReg s hu (by omega) v).mono ?_, ?_⟩
    · rintro f i j ⟨rfl, rfl, rfl⟩; exact ⟨rfl, rfl, rfl, h⟩
    · simp only [State.reg_setReg_self]; simp [Fld.spec]

/-- The sequencer moves on to the next instruction, or past the program store (R231). -/
theorem next_spec (s : State) {u : Nat} (hu : u < 256) :
    CoreOnly s (s.next u) u (fun f i _ => f = .corePc ∧ i = u)
    ∧ (s.next u).core u = { s.core u with pcOver := if s.pc u = 4095 then true else (s.core u).pcOver }
    ∧ (s.next u).pc u = if s.pc u = 4095 then 4095 else (s.pc u + 1) % 4096 := by
  unfold State.next
  split
  · next h => exact ⟨coreOnly_setCore _ _ _ _, by simp, by simpa [State.pc] using h⟩
  · refine ⟨((regsOnly_setReg s hu (by omega) _).coreOnly u).mono ?_, by simp, by simp [State.pc, Fld.spec]⟩
    rintro f i j ⟨rfl, rfl, -⟩; exact ⟨rfl, rfl⟩

/-- An instruction that only writes one scalar register: the register, the program counter, the cycle count, counters, and the halt after a STEP. -/
theorem scalarDone_spec (s : State) {u : Nat} (hu : u < 256) (dt v : Nat) {rd : Nat} (hn : rd < 32) :
    CoreOnly s (s.scalarDone u dt rd v) u (fun f i j => (f = .coreSreg ∧ i = u ∧ j = rd ∧ j ≠ 0) ∨ (f = .corePc ∧ i = u)
      ∨ (i = u ∧ (f = .dbgPmc ∨ (f = .dbgHalted ∧ (s.core u).stepOne = true))))
    ∧ (s.scalarDone u dt rd v).core u = { s.core u with
        cycles := (s.core u).cycles + dt
        fired := ((s.scalarDone u dt rd v).core u).fired
        stepOne := false
        pcOver := if s.pc u = 4095 then true else (s.core u).pcOver }
    ∧ (s.scalarDone u dt rd v).sreg u rd = (if rd = 0 then 0 else v % 2 ^ 64)
    ∧ (s.scalarDone u dt rd v).pc u = if s.pc u = 4095 then 4095 else (s.pc u + 1) % 4096 := by
  obtain ⟨a1, a2⟩ := tick_spec s hu dt
  obtain ⟨b1, b2⟩ := issued_spec (s.tick u dt) hu 0
  obtain ⟨c1, c2⟩ := setSreg_spec ((s.tick u dt).issued u false 0) hu hn (v % 2 ^ 64)
  obtain ⟨d1, d2, d3⟩ := next_spec (((s.tick u dt).issued u false 0).setSreg u rd (v % 2 ^ 64)) hu
  have hs : ((s.tick u dt).core u).stepOne = (s.core u).stepOne := by rw [a2]
  have hpc : (((s.tick u dt).issued u false 0).setSreg u rd (v % 2 ^ 64)).pc u = s.pc u := by
    unfold State.pc
    rw [c1.2 _ _ _ hu (by omega) (by simp), b1.2.2 _ _ _ hu (by omega) (by simp), a1.2.2 _ _ _ hu (by omega) (by simp)]
  refine ⟨?_, ?_, ?_, ?_⟩
  · refine (((a1.mono ?_).trans (b1.mono ?_)).trans ((c1.coreOnly u).mono ?_)).trans (d1.mono ?_)
    · rintro f i j ⟨rfl, rfl⟩; simp
    · rintro f i j ⟨rfl, h⟩; rw [hs] at h; simp [h]
    · exact fun f i j h => .inl h
    · rintro f i j ⟨rfl, rfl⟩; simp
  · rw [State.scalarDone, d2, c1.core, b2, a2, hpc]
  · have h1 : (s.scalarDone u dt rd v).sreg u rd = (((s.tick u dt).issued u false 0).setSreg u rd (v % 2 ^ 64)).sreg u rd := by
      unfold State.sreg State.scalarDone
      split
      · rfl
      · rw [d1.2.2 _ _ _ hu (by omega) (by simp)]
    rw [h1, c2]; simp
  · rw [State.scalarDone, d3, hpc]

/-- Cycles pass and a scalar instruction issues. -/
theorem tickIssued_spec (s : State) {u : Nat} (hu : u < 256) (dt q : Nat) :
    CoreOnly s ((s.tick u dt).issued u false q) u (fun f i _ => i = u ∧ (f = .dbgPmc ∨ (f = .dbgHalted ∧ (s.core u).stepOne = true)))
    ∧ ((s.tick u dt).issued u false q).core u = { s.core u with
        cycles := (s.core u).cycles + dt
        fired := (((s.tick u dt).issued u false q).core u).fired
        stepOne := false } := by
  obtain ⟨a1, a2⟩ := tick_spec s hu dt
  obtain ⟨b1, b2⟩ := issued_spec (s.tick u dt) hu q
  have hs : ((s.tick u dt).core u).stepOne = (s.core u).stepOne := by rw [a2]
  refine ⟨(a1.mono ?_).trans (b1.mono ?_), by rw [b2, a2]⟩
  · rintro f i j ⟨rfl, rfl⟩; simp
  · rintro f i j ⟨rfl, h⟩; rw [hs] at h; exact ⟨rfl, h⟩

/-- The interrupt messages of a state that differs in register fields and cores alone. -/
theorem settle_of_regsCores {s r : State} (h : r = { s with regs := r.regs, cores := r.cores }) :
    r.settle = { s with regs := r.settle.regs, cores := r.settle.cores, env := { s.env with intLast := r.settle.env.intLast },
                        out := r.settle.out } :=
  congrArg (fun q : State => ({ q with env := { q.env with intLast := r.settle.env.intLast }, out := r.settle.out } : State)) h

end Sys2Proof.Machine
end

