-- ==== Sys2Proof/Tests/Slice0.lean ====
section
/-! SUPPORT. Tests: the well-formedness checks with a command that each refuses, a witness for every clause of the obligations' hypotheses, and
the spec's worked cases. -/

namespace Sys2Proof.Tests

open Sys2Proof.Machine Sys2Proof.Claims

/-! ### Ill-formed commands are refused -/

theorem test_wf_tray : (Instr.trayQuery 32 5).wf = false := by decide
theorem test_wf_tray_log2 : (Instr.trayQuery 31 6).wf = false := by decide
theorem test_wf_training_tier1 : (Instr.memoryTrainingDone false (.fail [8])).wf = false := by decide
theorem test_wf_training_tier2 : (Instr.memoryTrainingDone true (.fail [7])).wf = false := by decide
theorem test_wf_request_cycle : (Instr.powerRequest 0 1000).wf = false := by decide
theorem test_wf_island : (Instr.grantReceive 237).wf = false := by decide
theorem test_wf_ecc_word : (Instr.ld 0 0 [⟨1536 * 64, 0, false, 0⟩]).wf = false := by decide
theorem test_wf_ecc_word_store : (Instr.st 0 ⟨0, [⟨1536 * 64, 0, false, 0⟩]⟩).wf = false := by decide
theorem test_wf_ecc_line : (Instr.apertureRead 16 0 ⟨64, [⟨2 ^ 34, true⟩]⟩).wf = false := by decide
theorem test_wf_ecc_line_packet : (Instr.packetFetch 0 0 ⟨none, [⟨2 ^ 34, false⟩]⟩).wf = false := by decide
theorem test_wf_meter_island : (Instr.subWindow 237 ⟨0, true⟩).wf = false := by decide
theorem test_wf_access_size : (Instr.registerWrite ⟨.pf, 0, 2, 0⟩).wf = false := by decide
theorem test_wf_access_aligned : (Instr.registerWrite ⟨.pf, 4, 8, 0⟩).wf = false := by decide
theorem test_wf_train_link : (Instr.train 0 ⟨0, false, 0, 24, 0, 0, false⟩).wf = false := by decide
theorem test_wf_train_tray : (Instr.train 0 ⟨0, false, 0, 23, 6, 0, false⟩).wf = false := by decide
theorem test_wf_flit : (Instr.flitReceive 0 ⟨[0], 0, 0⟩ 0).wf = false := by decide
theorem test_wf_aperture_none : (Instr.apertureRead 16 0 ⟨0, []⟩).wf = false := by decide
theorem test_wf_aperture_long : (Instr.apertureRead 16 0 ⟨4097, []⟩).wf = false := by decide
theorem test_wf_cause : (Instr.coreFence 0 8).wf = false := by decide
theorem test_wf_chip_fault : (Instr.chipFault 3 0).wf = false := by decide
theorem test_wf_port : (Instr.protoFault 15).wf = false := by decide
theorem test_wf_accepts : (Instr.registerWrite ⟨.pf, 8, 8, 5⟩).wf = true := by decide

-- one theorem at a time: the kernel's evaluations need much memory
set_option Elab.async false

/-! ### Small states -/

/-- A state with these register fields set: (field, instance, copy, value). -/
def put (l : List (Fld × Nat × Nat × Nat)) (s : State) : State := l.foldl (fun s x => s.setReg x.1 x.2.1 x.2.2.1 x.2.2.2) s

/-- The state after reset with these register fields set. -/
def st (l : List (Fld × Nat × Nat × Nat)) : State := put l State.reset

/-- Changes core `u`. -/
def onCore (u : Nat) (f : Core → Core) (s : State) : State := s.setCore u (f (s.core u))

/-- Core `u` runs a task whose instruction `pc` is `w`. -/
def runAt (u pc w : Nat) : State := onCore u (fun c => { c with cstate := 0, tasked := true, pstore := [(pc, w)] }) (st [(.coreRun, u, 0, 1), (.corePc, u, 0, pc)])
def run (u w : Nat) : State := runAt u 0 w

/-- An instruction's opcode, RD, RA and RB. -/
def ins (opc rd ra rb : Nat) : Nat := opc + rd * 2 ^ 8 + ra * 2 ^ 13 + rb * 2 ^ 18

/-- IMM. -/
def imm (v : Nat) : Nat := v * 2 ^ 64

/-! ### Scalar instructions -/

theorem wit_alu : ∀ r ∈ aluTable, (run 0 (ins r.opc 1 2 3)).canIssue 0 r.opc = true ∧ (runAt 127 4095 (ins (r.opc + 0x10) 1 2 0 + imm 5)).canIssue 127 (r.opc + 0x10) = true := by
  decide +kernel

/-- BR with a condition, to IMM. -/
def brW (cond target : Nat) : Nat := ins 0x32 0 1 2 + cond * 2 ^ 24 + imm target

theorem wit_branch : (run 0 (ins 0 0 0 0)).canIssue 0 0 = true
    ∧ (∀ c, c < 7 → (run 0 (brW c 4095)).canIssue 0 0x32 = true ∧ bits ((run 0 (brW c 4095)).iw 0) 24 3 ≠ 7 ∧ fImm ((run 0 (brW c 4095)).iw 0) < 4096)
    ∧ (run 0 (ins 0x33 1 0 0 + imm 4095)).canIssue 0 0x33 = true ∧ fImm ((run 0 (ins 0x33 1 0 0 + imm 4095)).iw 0) < 4096
    ∧ (run 0 (ins 0x34 0 1 0)).canIssue 0 0x34 = true ∧ (put [(.coreSreg, 0, 1, 4095)] (run 0 (ins 0x34 0 1 0))).sreg 0 1 ≤ 4095 := by
  decide +kernel

/-- CFG of word `n` with IMM `v`; CFGR of word `n`. -/
def cfgW (n v : Nat) : Nat := ins 0x40 0 0 0 + n * 2 ^ 24 + imm v
def cfgrW (n : Nat) : Nat := ins 0x41 0 1 0 + n * 2 ^ 24

/-- A core whose CFG to another shape holds its sequencer. -/
def shaping : State := onCore 0 (fun c => { c with hold := .shape 0x10000001 }) (run 0 (cfgW 0 0x10000001))

theorem wit_config : (∀ k, k < 6 → (run 0 (ins 0x35 1 0 0 + imm k)).canIssue 0 0x35 = true ∧ ((run 0 (ins 0x35 1 0 0 + imm k)).special 0 4 (bits ((run 0 (ins 0x35 1 0 0 + imm k)).iw 0) 64 8)).isSome = true)
    ∧ (∀ n, n < 3 → (run 0 (ins 0x36 1 0 0 + n * 2 ^ 24)).canIssue 0 0x36 = true ∧ bits ((run 0 (ins 0x36 1 0 0 + n * 2 ^ 24)).iw 0) 24 2 ≠ 3)
    ∧ (∀ n, n < 3 → (run 0 (cfgW n (0x10000000 * (1 - n)))).canIssue 0 0x40 = true ∧ cfgCheck n (0x10000000 * (1 - n)) = 0
        ∧ (run 0 (cfgrW n)).canIssue 0 0x41 = true ∧ cfgCheck n 0 = 0)
    ∧ (run 0 (cfgW 0 0x10000001)).canIssue 0 0x40 = true ∧ cfgCheck 0 0x10000001 = 0 ∧ 0x10000001 % 4 ≠ (run 0 (cfgW 0 0x10000001)).reg .coreShape 0 0
    ∧ (shaping.core 0).hold = .shape 0x10000001 ∧ (shaping.core 0).heldMma = [] ∧ shaping.fenced 0 = false
    ∧ (shaping.core 0).qFeed.all (fun d => decide (d.kind ≠ .lds ∧ d.kind ≠ .mma)) = true ∧ (shaping.core 0).qDrain.all (fun d => decide (d.kind ≠ .drain)) = true := by
  decide +kernel

/-! ### Loads, stores, rejections, the end of a task -/

/-- LD or ST of `nw` words of 2 ^ `size` bytes at `a`, sign-extended where `sx` is 1; RD (LD) and RB (ST) are register 5. -/
def memW (opc size sx nw a : Nat) : Nat := ins opc 5 0 5 + size * 2 ^ 24 + sx * 2 ^ 26 + (nw - 1) * 2 ^ 27 + imm a

theorem wit_load_store : (∀ x ∈ ([(0, 1, 0), (2, 1, 0xBFFFC), (3, 8, 0xBFFC0)] : List (Nat × Nat × Nat)),
      let s := run 0 (memW 0x30 x.1 1 x.2.1 x.2.2)
      let w := s.iw 0
      s.canIssue 0 0x30 = true ∧ s.ldCheck 0 w 5 = 0 ∧ (s.core 0).conflict [rowsOf (s.ldOff 0 w) (fSize w * fNw w)] [] = false
        ∧ (s.core 0).sb.length < 64 ∧ (∀ e ∈ [[], [⟨s.ldOff 0 w / 8, 2, false, 0⟩]], ((s.tick 0 3).eccErrs 0 (eccAt (s.ldOff 0 w) (fSize w * fNw w) e)).spdStatus 0 (s.ldOff 0 w) (fSize w * fNw w) = 0))
    ∧ (∀ x ∈ ([(0, 1, 0), (3, 8, 0xBFFC0)] : List (Nat × Nat × Nat)),
      let s := run 0 (memW 0x31 x.1 0 x.2.1 x.2.2)
      let w := s.iw 0
      s.canIssue 0 0x31 = true ∧ s.ldCheck 0 w 5 = 0 ∧ (s.core 0).conflict [] [rowsOf (s.ldOff 0 w) (fSize w * fNw w)] = false
        ∧ s.spdAnyOff 0 (s.ldOff 0 w) (fSize w * fNw w) = false ∧ (fSize w = 8 ∨ ∀ e ∈ [[], [⟨s.ldOff 0 w / 8, 2, false, 0⟩]],
            ((s.tick 0 3).eccErrs 0 (eccAt (s.ldOff 0 w) (fSize w * fNw w) e)).spdAnyPoison 0 (s.ldOff 0 w) (fSize w * fNw w) = false)) := by
  decide +kernel

/-- An SOP of the reserved OP 6. -/
def sop6W : Nat := 0xA0 + 6 * 2 ^ 24

/-- A core whose instruction is rejected under ERRSTOP = 0. -/
def runOn (w : Nat) : State := put [(.coreTc, 0, 0, 0)] (run 0 w)

theorem wit_rejected : (∀ w ∈ ([0x05, memW 0x30 2 0 1 2, memW 0x31 2 0 1 2, brW 7 0, brW 6 4096, ins 0x33 1 0 0 + imm 4096, ins 0x35 1 0 0 + imm 6,
      ins 0x36 1 0 0 + 3 * 2 ^ 24, cfgW 3 0, cfgW 0 3, ins 0x03 0 0 0 + 2 * 2 ^ 32, sop6W] : List Nat), GoesOn (runOn w) 0 ∧ (runOn w).canIssue 0 (fOpc w) = true
      ∧ ((runOn w).core 0).sb.length < 64 ∧ ((runOn w).core 0).hold = .none
      ∧ ((runOn w).core 0).conflict [] [rowsOf ((runOn w).ldOff 0 w) (fSize w * fNw w)] = false
      ∧ ((runOn w).core 0).conflict [rowsOf ((runOn w).ldOff 0 w) (fSize w * fNw w)] [] = false)
    ∧ opDefined 0x05 = false ∧ 6 ≤ sOp sop6W ∧ (runOn (memW 0x30 2 0 1 2)).ldCheck 0 (memW 0x30 2 0 1 2) 5 ≠ 0 ∧ (runOn (memW 0x31 2 0 1 2)).ldCheck 0 (memW 0x31 2 0 1 2) 5 ≠ 0
    ∧ cfgCheck 3 0 ≠ 0 ∧ cfgCheck 0 3 ≠ 0
    ∧ (put [(.coreSreg, 0, 1, 3)] (runOn (cfgrW 0))).canIssue 0 0x41 = true ∧ cfgCheck 0 ((put [(.coreSreg, 0, 1, 3)] (runOn (cfgrW 0))).sreg 0 1) ≠ 0
    ∧ GoesOn (put [(.coreSreg, 0, 1, 3)] (runOn (cfgrW 0))) 0 := by
  unfold GoesOn; decide +kernel

/-- SPWR of pairs `m` to state `x`; a core with pair 7 OFF. -/
def spwrW (m x : Nat) : Nat := 0x03 + m * 2 ^ 24 + x * 2 ^ 32
def pairOff (w : Nat) : State := put [(.spdPairState, 0, 0, 0x3FFF)] (onCore 0 (fun c => { c with pairAct := 0x3FFF }) (run 0 w))

/-- A launch of core 0, still running. -/
def aLaunch : Launch := { lid := 3, pid := 0, fn := 16, part := 0, cores := [0], fallback := 0, done := 0, doneEn := false, timeout := 9, urgent := false }
def inLaunch (s : State) : State := { (onCore 0 (fun c => { c with launch := some 3 }) s) with host := { s.host with launches := [aLaunch] } }

theorem wit_task_control : (run 0 (0x02 + 31 * 2 ^ 24)).canIssue 0 0x02 = true ∧ (∀ q, q < 4 → ((run 0 0).core 0).queueDone q = true) ∧ ((run 0 0).core 0).posted = []
    ∧ (run 0 0x04).canIssue 0 0x04 = true ∧ (run 0 0x04).reg .dbgEn 0 0 = 0 ∧ (put [(.dbgEn, 0, 0, 1)] (run 0 0x04)).canIssue 0 0x04 = true
    ∧ (put [(.dbgEn, 0, 0, 1)] (run 0 0x04)).reg .dbgEn 0 0 = 1
    ∧ (∀ x, x < 4 → (run 0 (spwrW 0x81 x)).canIssue 0 0x03 = true ∧ bits (spwrW 0x81 x) 32 2 = x)
    ∧ (run 0 (spwrW 0xFF 3)).pairsOn 0 0xFF = true ∧ (pairOff (spwrW 0x80 3)).pairsOn 0 0x80 = false ∧ (pairOff (spwrW 0x80 3)).canIssue 0 0x03 = true
    ∧ ((onCore 0 (fun c => { c with hold := .spwr 0x80 }) (run 0 (spwrW 0x80 3))).core 0).hold = Hold.spwr 0x80
    ∧ (onCore 0 (fun c => { c with hold := .spwr 0x80 }) (run 0 (spwrW 0x80 3))).canIssue 0 0x03 = true
    ∧ (inLaunch (run 0 0x01)).canIssue 0 0x01 = true ∧ (∀ q, q < 4 → ((inLaunch (run 0 0x01)).core 0).queueDone q = true)
    ∧ ((inLaunch (run 0 0x01)).core 0).launch = some aLaunch.lid := by
  decide +kernel

/-- A core that has run past its store. -/
def overrun : State := onCore 0 (fun c => { c with pcOver := true }) (runAt 0 4095 0)

theorem wit_task_stops : overrun.runs 0 = true ∧ (overrun.core 0).pcOver = true ∧ (overrun.core 0).tasked = true ∧ (overrun.core 0).stopping = false
    ∧ (overrun.core 0).xfers = [] ∧ (overrun.core 0).heldMma = [] ∧ (overrun.core 0).posted = []
    ∧ (put [(.coreSreg, 0, 1, 4096)] (run 0 (ins 0x34 0 1 0))).canIssue 0 0x34 = true ∧ 4095 < (put [(.coreSreg, 0, 1, 4096)] (run 0 (ins 0x34 0 1 0))).sreg 0 1
    ∧ (run 0 5).canIssue 0 5 = true ∧ opDefined 5 = false ∧ tErrstop ((run 0 5).tc 0 0) = true := by
  decide +kernel

/-! ### Tile instructions -/

/-- The next state of a command. -/
def after (c : Instr) (s : State) : State := match exec c s with
  | .next t => t
  | _ => s

/-- A dense descriptor of format `f`: `lines` lines of `len` elements from `base`; `k` is LINEK. -/
def denseW (f k lines len base : Nat) : Nat :=
  f * 2 ^ 8 + k * 2 ^ 17 + 8 * ceilDiv (ceilDiv (len * eltBits f) 8) 8 * 2 ^ 48 + lines * 2 ^ 64 + len * 2 ^ 96 + base * 2 ^ 128 + 0xBFFF8 * 2 ^ 288

/-- A core with descriptors 0 (INT8 stationary), 1 (INT8 weights), 2 (INT32 output), TC0 = INT8 to INT32 in shape 0 without ERRSTOP, some
scratchpad bytes, and instruction `w`. -/
def tile (w : Nat) : State :=
  put [(.coreTc, 0, 0, 7 * 4 + 9 * 64)] (onCore 0 (fun c => { c with
    desc := [(0, denseW 7 1 8 32 0), (1, denseW 7 0 8 8 512), (2, denseW 9 1 8 4 1024)]
    spd := [(1, 1), (255, 3), (567, 5), (2048, 7), (2303, 9)] }) (run 0 w))

def ldsW : Nat := 0x50 + 7 * 2 ^ 28 + 31 * 2 ^ 52
def mmaW (flag : Nat) : Nat := 0x51 + 2 ^ 24 + 6 * 2 ^ 28 + 2 * 2 ^ 68 + 2 ^ 81 + flag * 2 ^ 85 + 256 * 2 ^ 87
def rawW : Nat := 0x61 + 2 * 2 ^ 68 + 2 ^ 81 + 2 ^ 85 + (0xBFE00 / 8) * 2 ^ 101
def drainW : Nat := 0x61 + 2 * 2 ^ 24 + 6 * 2 ^ 28 + 2 * 2 ^ 68 + 2 ^ 81
def dmaW (eng dir : Nat) : Nat := 0x80 + eng * 2 ^ 24 + dir * 2 ^ 26 + 0xBFFC0 * 2 ^ 27 + 1535 * 2 ^ 47

theorem wit_tile_issue :
    (let s := tile ldsW
     let ds := s.descOf 0 0
     s.canIssue 0 0x50 = true ∧ (s.core 0).heldBy 0 (s.ldsRows 0 (s.tc 0 0) (s.tc 0 1) (s.tc 0 2) (effA s 0 28 24) (ldsSpan (s.tc 0 0)) (effB s 0 52 24) ds) [] = false
      ∧ (s.core 0).loadPending [0] (decide (ds.layout = 15)) = false ∧ effA s 0 28 24 = 7 ∧ effB s 0 52 24 = 31
      ∧ s.ldsCheck 0 (s.tc 0 0) (effA s 0 28 24) (effB s 0 52 24) ds = 0)
    ∧ (∀ f, f < 3 →
      let s := after (.lds 0 3) (put [(.corePc, 0, 0, 0)] (tile ldsW))
      let s := s.setPword 0 1 (mmaW f)
      let lb := if f = 2 then effBase s 0 87 17 else 0
      let rd := s.mmaReads 0 (mmaW f) (s.tc 0 0) (effA s 0 28 24) lb (s.descOf 0 1)
      s.canIssue 0 0x51 = true ∧ (s.core 0).heldBy 0 rd [] = false ∧ (s.core 0).loadPending [1] (decide ((s.descOf 0 1).layout = 15)) = false
        ∧ s.mmaCheck 0 (mmaW f) (s.tc 0 0) (effA s 0 28 24) lb (s.descOf 0 1) = 0)
    ∧ (tile 0x60).canIssue 0 0x60 = true ∧ ((tile 0x60).core 0).heldBy 1 [] [] = false
    ∧ (∀ w ∈ [rawW, drainW],
      let s := tile w
      let t0 := s.tc 0 0
      let base := if drRaw w then effBase s 0 101 17 else 0
      let slots := if drRaw w then [] else [2]
      let rr := drainRows w t0 (effA s 0 28 24) base (s.drainRec 0) (slots.map (s.descOf 0))
      s.canIssue 0 0x61 = true ∧ (s.core 0).heldBy 1 rr.1 rr.2 = false ∧ (s.core 0).loadPending slots false = false
        ∧ drainCheck w t0 (effA s 0 28 24) base 0 0 (s.drainRec 0) (slots.map (s.descOf 0)) = 0)
    ∧ (∀ x ∈ ([(0, 0), (2, 1)] : List (Nat × Nat)),
      let s := tile (dmaW x.1 x.2)
      let rows := byteRows (effA s 0 27 20) (effA s 0 27 20 + 64)
      s.canIssue 0 0x80 = true ∧ (s.core 0).heldBy 2 (if x.2 = 1 then [(1535, 1535)] ++ rows else rows) (if x.2 = 1 then [] else [(1535, 1535)]) = false
        ∧ bits (dmaW x.1 x.2) 24 2 ≠ 3 ∧ effA s 0 27 20 = 0xBFFC0 ∧ effB s 0 47 11 = 1535 ∧ bits (dmaW x.1 x.2) 58 11 = 0
        ∧ (dmaW x.1 x.2).testBit 69 = false) := by
  decide +kernel

/-- The core with these instructions issued one after the other. -/
def issuedFrom : Nat → List (Nat × Instr) → State → State
  | _, [], s => s
  | i, (w, c) :: l, s => issuedFrom (i + 1) l (after c (s.setPword 0 i w))
def issued (l : List (Nat × Instr)) : State := (issuedFrom 0 l (tile 0)).setReg .tstatusValid 0 0 0

/-- A core that stopped an LDS: its tile would lie in a poisoned pointer's array. -/
def ldsBad (s : State) : State := onCore 0 (fun c => { c with
  qFeed := c.qFeed.map (fun d => { d with descs := [denseW 7 1 8 32 0 + 2] }), spdPsn := [0, 1, 2, 3] }) s

theorem wit_lds_start :
    (let s := issued [(ldsW, .lds 0 3)];
     GoesOn s 0 ∧ ((s.front 0 0 .lds).isSome && (s.core 0).standby.isNone) = true
      ∧ ((s.core 0).qFeed.all (fun d => ((((s.asIssued 0 d.id).popFront 0 0).eccErrs 0 (eccIn (((s.asIssued 0 d.id).popFront 0 0).ldsRead 0 d []) [])).ldsTile 0 d).isOk)) = true
      ∧ ((ldsBad s).core 0).qFeed.all (fun d => !(((((ldsBad s).asIssued 0 d.id).popFront 0 0).eccErrs 0 (eccIn ((((ldsBad s).asIssued 0 d.id).popFront 0 0).ldsRead 0 d []) [])).ldsTile 0 d).isOk) = true) := by
  unfold GoesOn; decide +kernel

/-- A loaded tile of INT8 at k = 7 to 38. -/
def aTile : Tile := { fmt := 7, shape := 0, dense := true, linek := true, bscale := false, k0 := 7, knext := 39,
                      lanes := (List.range 32).map (fun i => some (7 + i)), els := [], sup := [], poison := [], scale := [] }

theorem wit_mma_start :
    ∀ b : Bool,
       let s := onCore 0 (fun c => { c with standby := some aTile, active := if b then some aTile else none }) (issued [(mmaW 2, .mma 0 3)])
       let fz : FreezeCycles := ⟨1, 0, 2, 0, 9, b⟩
       (match s.front 0 0 .mma with
        | some d =>
          let v := (s.asIssued 0 d.id).popFront 0 0
          ((((v.setCore 0 { v.core 0 with active := some aTile, standby := if b then (s.core 0).standby else none }).freezes 0 fz).eccErrs 0
            (eccIn (v.mmaReads 0 d.word d.tc0 d.ea d.eb (d.desc 0)) [])).decodeLines 0
            (d.desc 0) aTile.k0 (aTile.knext - aTile.k0) (mmaLines d.word d.ea)).isOk && !(s.core 0).standbyBad
        | none => false) = true
       ∧ (if (s.core 0).standby.isSome && !fz.atLoad then (s.core 0).standby else (s.core 0).active) = some aTile ∧ GoesOn s 0 := by
  unfold GoesOn; decide +kernel

theorem wit_swap_effect :
    (let s := issued [(0x60, .swap 0 3)];
       (s.front 0 1 .swap).isSome = true ∧ (s.core 0).qFeed = [] ∧ (s.core 0).heldMma = [] ∧ s.reg .accLive 0 0 < 2 ∧ GoesOn s 0) := by
  unfold GoesOn; decide +kernel

theorem wit_drain_start :
    (∀ w ∈ [rawW, drainW],
       let s := issued [(w, .drain 0 3)]
       (match s.front 0 1 .drain with
        | some d => d.srec.isSome && decide (drRaw d.word = decide (w = rawW)) && !(s.spdAnyOff 0 d.eb (if drRaw w then fullBytes (tShape d.tc0) d.word else 0)) && decide ((s.core 0).qFront = [])
        | none => false) = true ∧ GoesOn s 0) := by
  unfold GoesOn; decide +kernel

/-! ### Sparse front end -/

/-- A core as `tile`, with three descriptors of four columns: INT8, INT8 and INT32. -/
def sparse (w : Nat) : State :=
  onCore 0 (fun c => { c with desc := [(0, denseW 7 1 8 4 0), (1, denseW 7 1 8 4 128), (2, denseW 9 1 8 4 1024)]
                              spd := [(0, 1), (2, 3), (128, 5), (131, 7)] }) (tile w)

def dloadW : Nat := 0x70 + 15 * 2 ^ 24 + 0xBFFC0 * 2 ^ 28
def uloadW (at_ n src : Nat) : Nat := 0x71 + at_ * 2 ^ 24 + (n - 1) * 2 ^ 34 + src * 2 ^ 44
def countW : Nat := 0x72 + 7 * 2 ^ 52 + (0xC0000 - 32) * 2 ^ 76
def mergeW : Nat := 0x73 + 2 ^ 28 + 2 * 2 ^ 32 + 7 * 2 ^ 63

theorem wit_sparse_front :
    (let s := sparse dloadW
     GoesOn s 0 ∧ s.canIssue 0 0x70 = true ∧ (s.core 0).heldBy 3 (byteRows (effA s 0 28 20) (effA s 0 28 20 + 64)) [] = false ∧ effA s 0 28 20 = 0xBFFC0
      ∧ s.noSlot6 0 = false ∧ (s.core 0).qFront = []
      ∧ ((s.issueTile 0 3 3 (s.mkDisp 0 .dload 0xBFFC0 0 0 0 [] none) (byteRows 0xBFFC0 0xC0000) []).eccErrs 0 []).spdStatus 0 0xBFFC0 64 = 0
      ∧ (s.core 0).stepOne = false ∧ (s.core 0).loadPending [bits dloadW 24 4] false = false
      ∧ (onCore 0 (fun c => { c with stepOne := true }) s).canIssue 0 0x70 = true)
    ∧ (let s := onCore 0 (fun c => { c with qFront := [⟨0, .gate 3, 0, 0, 0, 0, 0, 0, 0, 0, 0, [], none⟩] }) (sparse dloadW)
       s.canIssue 0 0x70 = true ∧ ((s.core 0).qFront.all (fun g => decide (g.kind = .gate 3))) = true
        ∧ (s.core 0).heldBy 3 (byteRows (effA s 0 28 20) (effA s 0 28 20 + 64)) [] = false ∧ (s.core 0).loadPending [bits dloadW 24 4] false = false)
    ∧ (∀ x ∈ ([(0, 1024, 0), (1023, 1, 0xBFFC0)] : List (Nat × Nat × Nat)),
      let s := sparse (uloadW x.1 x.2.1 x.2.2)
      let w := uloadW x.1 x.2.1 x.2.2
      let rd := byteRows x.2.2 (x.2.2 + 4 * x.2.1)
      s.canIssue 0 0x71 = true ∧ effA s 0 44 20 = x.2.2 ∧ bits w 34 10 + 1 = x.2.1 ∧ bits w 24 10 = x.1 ∧ (s.core 0).heldBy 3 rd [] = false
        ∧ ((s.issueTile 0 3 3 (s.mkDisp 0 .uload x.2.2 0 0 0 [] none) rd []).eccErrs 0 []).spdStatus 0 x.2.2 (4 * x.2.1) = 0)
    ∧ (let s := sparse countW
       let ds := s.descOf 0 0
       let dst := effB s 0 76 20
       let rd := s.opRows 0 ds 0 8 0 ds.len
       let wr := byteRows dst (dst + 32)
       s.canIssue 0 0x72 = true ∧ effA s 0 28 24 = 0 ∧ dst = 0xC0000 - 32 ∧ cntNl countW = 7 ∧ ds.lines = 8 ∧ (s.core 0).heldBy 3 rd wr = false
        ∧ (s.core 0).loadPending [0] (decide (ds.layout = 15)) = false ∧ ds.bad = false ∧ isOperand ds.fmt = true ∧ ds.scaleRole = false
        ∧ s.spdAnyOff 0 dst 32 = false
        ∧ ((((s.issueTile 0 3 3 (s.mkDisp 0 .count 0 dst 0 0 [s.dslot 0 0] none) rd wr).eccErrs 0 []).asIssued 0 (s.core 0).nextId |>.popFront 0 3).decodeLines 0 ds 0 ds.len
            (List.range 8)).isOk = true)
    ∧ (let s := sparse mergeW
       let a := s.descOf 0 0
       let b := s.descOf 0 1
       let o := s.descOf 0 2
       let rd := s.opRows 0 a 0 8 0 a.len ++ s.opRows 0 b 0 8 0 b.len
       let wr := o.outRows 0 8 o.len
       let d := s.mkDisp 0 .merge 0 0 0 0 [s.dslot 0 0, s.dslot 0 1, s.dslot 0 2] none
       s.canIssue 0 0x73 = true ∧ effA s 0 39 24 = 0 ∧ mrgA mergeW = 0 ∧ mrgB mergeW = 1 ∧ mrgO mergeW = 2 ∧ mrgNl mergeW = 7 ∧ (s.core 0).heldBy 3 rd wr = false
        ∧ (s.core 0).loadPending [0, 1, 2] (decide (a.layout = 15) || decide (b.layout = 15)) = false ∧ s.mergeCheck 0 mergeW (s.tc 0 0) 0 a b o = 0
        ∧ (s.core 0).behindDrain d = false
        ∧ (onCore 0 (fun c => { c with qDrain := [{ d with kind := .drain }] }) s).canIssue 0 0x73 = true
        ∧ ((onCore 0 (fun c => { c with qDrain := [{ d with kind := .drain, id := 0 }] }) s).core 0).behindDrain { d with id := 1 } = true
        ∧ (((((s.issueTile 0 3 3 d rd wr).eccErrs 0 []).asIssued 0 d.id).popFront 0 3 |>.mergeLines 0 mergeW a b (tSat (s.tc 0 0)) (List.range 8)).2.2 = none)) := by
  unfold GoesOn; decide +kernel

/-! ### DMA engines and sluices -/

/-- Partition 0 runs on quad 0 and owns the last sluice. -/
def part0 (s : State) : State :=
  put [(.partState, 0, 0, 1), (.partQuads, 0, 0, 1), (.slcPartEn, 0, 0, 1), (.slcPartBase, 0, 0, 16382), (.slcPartSize, 0, 0, 2)] s

/-- A transfer of core 0, with nothing left to do. -/
def anXfer (eng fail : Nat) (sig : Bool) : DmaXfer :=
  { id := 5, eng := eng, pc := 77, dir := 0, sig := sig, sluice := 16383, todo := [], out := [], fail := fail, failAt := 0, desc := 0 }
def moving (eng fail : Nat) (sig : Bool) : State := onCore 0 (fun c => { c with xfers := [anXfer eng fail sig] }) (put [(.dmaBusy, 0, eng, 1)] (tile 0))

theorem wit_dma_engine :
    (let s := onCore 0 (fun c => { c with sb := [⟨9, [(0, 1535)], [], false⟩, ⟨10, [], [(3, 3)], true⟩] }) (tile 0)
     (s.core 0).sb.any (fun e => decide (e.id = 9)) = true ∧ (s.core 0).qFeed ++ (s.core 0).qDrain ++ (s.core 0).qDma ++ (s.core 0).qFront = []
      ∧ (s.core 0).xfers = [] ∧ (s.core 0).hold = .none ∧ (s.core 0).stopping = false)
    ∧ (∀ x ∈ ([(0, 0, 0), (2, 0, 0), (2, 1, 1), (1, 1, 1)] : List (Nat × Nat × Nat)),
      let s := after (.dma 0 3) (tile (dmaW x.1 1))
      let s := if x.2.2 = 1 then onCore 0 (fun c => { c with xfers := [anXfer 0 0 false] }) s else s
      (match s.front 0 2 .dma with
        | some d => decide (bits d.word 24 2 = x.2.1) || (decide (bits d.word 24 2 = 2) && (decide (x.2.1 = 0) || ((s.core 0).xfer 0).isSome))
        | none => false) = true
      ∧ (s.core 0).xfer x.2.1 = none ∧ x.2.1 < 2 ∧ GoesOn s 0
      ∧ ((s.core 0).qDma.all (fun d => decide ((((s.asIssued 0 d.id).popFront 0 2).eccErrs 0 []).spdStatus 0 0xBFFC0 64 = 0 ∧ d.ea = 0xBFFC0))) = true)
    ∧ (∀ x ∈ ([(0, 0, true), (1, 0x61, false)] : List (Nat × Nat × Bool)),
      let s := moving x.1 x.2.1 x.2.2
      (s.core 0).xfer x.1 = some (anXfer x.1 x.2.1 x.2.2) ∧ GoesOn s 0 ∧ (s.core 0).stopping = false) := by
  unfold GoesOn; decide +kernel

/-- SOP `op` of sluice `n`; `r` is REMOTE with its chip, `gq` GQ, `v` IMM. -/
def sopW (op n r chip ord gq v : Nat) : Nat :=
  0xA0 + 2 ^ 8 + op * 2 ^ 24 + n * 2 ^ 27 + chip * 2 ^ 41 + r * 2 ^ 49 + ord * 2 ^ 50 + gq * 2 ^ 54 + imm v

theorem wit_sops :
    (∀ op ∈ [0, 3, 4], ∀ r, r < 2 → let s := part0 (tile (sopW op 16383 r (255 * r) 15 0 (2 ^ 48 - 1))); s.sopIssue 0 op = true ∧ s.sopBad 0 (s.iw 0) = 0)
    ∧ (∀ op ∈ [1, 5], let s := part0 (tile (sopW op 16383 0 0 0 15 (2 ^ 48 - 1)))
       s.sopIssue 0 op = true ∧ s.sopBad 0 (s.iw 0) = 0 ∧ (s.core 0).waits = [] ∧ ∀ q, q < 4 → (s.core 0).queue q = [])
    ∧ (let s := part0 (tile (sopW 2 16382 0 0 0 0 0))
       s.sopIssue 0 2 = true ∧ s.sopBad 0 (s.iw 0) = 0 ∧ sRemote (s.iw 0) = false ∧ s.slcDown (s.sNum 0 (s.iw 0)) = none
        ∧ s.slcBehind 0 s.chip (s.sNum 0 (s.iw 0)) = false)
    ∧ (let s := part0 (tile (sopW 2 0 1 255 0 0 0)); s.sopIssue 0 2 = true ∧ s.sopBad 0 (s.iw 0) = 0 ∧ sRemote (s.iw 0) = true) := by
  decide +kernel

/-- A message on its way to this chip, before all others. -/
def sent (m : Msg) (s : State) : State := { s with net := m :: s.net }

/-- A sluice operation of core 7. -/
def aSop (code n arg len : Nat) : Msg := { op := .sop, src := 7, dst := bankIsland n, tag := 44, addr := n, code := code, arg := arg, len := len }

theorem wit_sluice_operations : ∀ code ∈ [0, 2, 3, 4], ∀ mode ∈ [0, 1, 3], ∀ len ∈ [0, 1],
    let s := sent (aSop code 16383 (if code = 4 then 0x80 + mode else 2 ^ 48 - 1) len)
      (put [(.sluiceCtrl, 0, 16383, mode), (.sluiceCount, 0, 16383, 1)] (part0 State.reset))
    let m := aSop code 16383 (if code = 4 then 0x80 + mode else 2 ^ 48 - 1) len
    s.slcArrival .sop 0 = some m ∧ s.remoteOk m = true ∧ s.slcDown 16383 = none ∧ s.waiters = [] ∧ cMode (s.slcCtl 16383) ≠ 2
      ∧ (code = 4 → cMode m.arg ≠ 2 ∧ cGlobal m.arg = false) := by
  decide +kernel

/-- A waiter record of core 7 with value `v`, a wake for core 0, an answer to core 0. -/
def aWaiter (n v len : Nat) : Msg := { op := .waiter, src := 7, sub := 44, dst := bankIsland n, tag := 44, addr := n, arg := v, len := len }
def aWake (wid : Nat) : Msg := { op := .wake, src := 183, dst := 0, dsub := wid, tag := wid, addr := 16383 }
def anAck (code : Nat) : Msg := { op := .slcAck, src := 183, dst := 0, dsub := 5, tag := 5, addr := 16383, code := code }

/-- A core that waits for sluice 16383, by WAIT or by GATE; `x` is whether its record was refused. -/
def waiting (gate : Bool) (x : Nat) : State :=
  onCore 0 (fun c => { c with waits := [⟨5, gate, 0, 16383, 1, 0, x, 0⟩], hold := if gate then .none else .wait 5
                              qFeed := if gate then [⟨1, .gate 5, 0, 0, 0, 0, 0, 0, 0, 0, 0, [], none⟩] else [] }) (part0 (tile 0))

/-- A sluice of the root chip of a tray's tree, at EXPECT 1 with ARRIVED 1, and links to every chip of the tray. -/
def treeRoot : State :=
  put ((List.range 14).map (fun l => (Fld.linkState, 0, l, 2))) (put [(.sluiceCtrl, 0, 16383, 0x8A), (.sluiceCount, 0, 16383, 0x101)] (part0 State.reset))

theorem wit_waiters_and_tree :
    (∀ x ∈ ([(0, 2 ^ 48 - 1, 0), (0, 1, 0), (1, 1, 1), (3, 0, 0)] : List (Nat × Nat × Nat)),
      let s := sent (aWaiter 16383 x.2.1 x.2.2) (put [(.sluiceCtrl, 0, 16383, x.1), (.sluiceCount, 0, 16383, 1)] (part0 State.reset))
      s.slcArrival .waiter 0 = some (aWaiter 16383 x.2.1 x.2.2) ∧ s.remoteOk (aWaiter 16383 x.2.1 x.2.2) = true ∧ s.slcDown 16383 = none ∧ s.waiters = []
        ∧ s.slcCount 16383 = 1)
    ∧ (∀ g : Bool, let s := sent (aWake 5) (waiting g 0)
       s.arrival .wake 0 = some (aWake 5) ∧ ((s.core 0).waits.find? (fun x => decide (x.wid = 5))).map (fun x => x.gate) = some g
        ∧ (s.core 0).qFront = [] ∧ (g = false → (s.core 0).hold = .wait 5) ∧ s.reg .dbgHalted 0 0 = 0 ∧ (s.core 0).capture = none)
    ∧ (let s := put [(.dbgHalted, 0, 0, 1)] (sent (aWake 5) (waiting false 0))
       s.arrival .wake 0 = some (aWake 5) ∧ (s.core 0).hold = .wait 5 ∧ s.reg .dbgHalted 0 0 = 1)
    ∧ (sent (anAck 255) (waiting false 0)).arrival .slcAck 0 = some (anAck 255)
    ∧ (∀ code ∈ [0, 0x44, 254], let s := sent (anAck code) (onCore 0 (fun c => { c with posted := [⟨5, 3, [], 0, 0, 16383, 1, 5⟩] }) (part0 (tile 0)))
       s.arrival .slcAck 0 = some (anAck code) ∧ (s.core 0).hold ≠ .test 5 ∧ GoesOn s 0 ∧ (s.core 0).stopping = false
        ∧ ((s.core 0).posted.find? (fun x => decide (x.tag = 5))).isSome = true)
    ∧ (∀ mode, mode < 2 → let s := put [(.sluiceCtrl, 0, 16383, mode), (.sluiceCount, 0, 16383, 1)] (waiting false 1)
       ((s.core 0).waits.find? (fun x => decide (x.wid = 5) && decide (x.state = 1)) = some ⟨5, false, 0, 16383, 1, 0, 1, 0⟩) ∧ s.chip = 0
        ∧ (s.core 0).waits.find? (fun x => decide (x.wid = 5)) = some ⟨5, false, 0, 16383, 1, 0, 1, 0⟩ ∧ (s.core 0).hold = .wait 5 ∧ s.slcCount 16383 = 1
        ∧ s.reg .dbgHalted 0 0 = 0 ∧ (s.core 0).capture = none)
    ∧ (let m : Msg := { op := .treeArrive, srcChip := 1, src := 183, dst := 183, addr := 16383 }
       (sent m treeRoot).arrival .treeArrive 0 = some m ∧ (sent m treeRoot).slcDown 16383 = none)
    ∧ (let m : Msg := { op := .treeRelease, srcChip := 8, src := 183, dst := 183, addr := 16383 }
       let s := sent m (put [(.klkReach, 0, 0, 0xFF)] treeRoot)
       s.arrival .treeRelease 0 = some m ∧ s.slcDown 16383 = none ∧ s.waiters = [] ∧ cMode (s.slcCtl 16383) = 2 ∧ cGlobal (s.slcCtl 16383) = true
        ∧ bArrived (s.slcCount 16383) - bExpect (s.slcCount 16383) < bExpect (s.slcCount 16383)
        ∧ (treeChildren s.chip (cScope (s.slcCtl 16383))).all (fun c => s.linkUp c.2 && s.chipUp c.1) = true
        ∧ (treeChildren s.chip (cScope (s.slcCtl 16383))).length = 7) := by
  unfold GoesOn; decide +kernel

/-- A BARRIER that is not GLOBAL. -/
def barrier (v : Nat) : State := put [(.sluiceCtrl, 0, 16383, 2), (.sluiceCount, 0, 16383, v)] State.reset

theorem wit_barrier_releases : ∀ x ∈ ([(0x0200, 1), (0x0201, 1), (0xFFFFFFFF0200, 3), (0x0000FF00, 255)] : List (Nat × Nat)),
    let s := barrier x.1
    let v := s.slcCount 16383
    v = x.1 ∧ cMode (s.slcCtl 16383) = 2 ∧ cGlobal (s.slcCtl 16383) = false ∧ v < 2 ^ 48 ∧ bArrived v + x.2 < 256 ∧ 0 < bExpect v ∧ s.waiters = []
      ∧ bArrived v + x.2 < 2 * bExpect v := by
  decide +kernel

/-! ### Stage queues -/

/-- QPUSH, QPOP, QFLUSH or QSTAT with handle s1, RD = s2, `nw` words at `off`. -/
def qW (opc nw off try_ : Nat) : Nat := ins opc 2 1 0 + off * 2 ^ 24 + (nw - 1) * 2 ^ 44 + try_ * 2 ^ 48

/-- A core with queue 15 of four cells at cell 4, and send entry 15 toward queue 15 of core 127 with `cr` credits; s1 names entry or queue 15. -/
def queueing (w cr : Nat) : State :=
  put [(.qsEn, 0, 15, 1), (.qsTcore, 0, 15, 127), (.qsTq, 0, 15, 15), (.qsQuota, 0, 15, 8), (.qsCredits, 0, 15, cr), (.qsFlight, 0, 15, 9),
    (.qdEn, 0, 15, 1), (.qdCells, 0, 15, 4), (.qdBase, 0, 15, 4), (.qdFlight, 0, 15, 9), (.coreSreg, 0, 1, if fOpc w = 0x90 then 31 else 15)]
    (part0 (tile w))

/-- A queue that holds an item of `n` words from entry 3 of core 9. -/
def holding (u n : Nat) (s : State) : State :=
  onCore u (fun c => { c with items := [⟨15, n, cellsOf n, false, 0, 9, 3⟩], pushers := [(15, 4611)] })
    (put [(.qdDepth, u, 15, 1), (.qdTail, u, 15, cellsOf n)] s)

/-- A corrected error in the word at byte offset `a`. -/
def oneCe (a : Nat) : List EccErr := [⟨a / 8, 2, false, 0⟩]

theorem wit_queue_push :
    (∀ nw ∈ [1, 8, 9, 16], ∀ tr, tr < 2 → ∀ cr ∈ [0, cellsOf nw],
      let s := queueing (qW 0x90 nw (0xC0000 - 8 * nw) tr) cr
      let w := s.iw 0
      s.canIssue 0 0x90 = true ∧ (s.core 0).hold = .none ∧ (s.core 0).sb = [] ∧ (s.core 0).conflict [rowsOf (s.qOff 0 w) (8 * nw)] [] = false
        ∧ s.pushBad 0 w = 0 ∧ hIndex (s.qHandle 0 w) = 15 ∧ s.qOff 0 w + 8 * qWords w = 0xC0000
        ∧ (∀ e ∈ [[], oneCe (s.qOff 0 w)], (s.eccErrs 0 (eccAt (s.qOff 0 w) (min (8 * nw) 64) e)).spdStatus 0 (s.qOff 0 w) (min (8 * nw) 64) = 0)
        ∧ s.reg .qsCredits 0 15 < 8192 ∧ s.reg .qsMode 0 15 = 0
        ∧ s.pushTarget 0 15 (cellsOf (qWords w)) = if cr = 0 then none else some (0, 0, 127, 15, 0)) := by
  decide +kernel

theorem wit_queue_push_goes_on :
    (∀ nw ∈ [9, 16], let s := queueing (qW 0x90 nw 0 0) 0
       let s := onCore 0 (fun c => { c with hold := .pushMid 6 0 0 127 15 (s.spdReads 0 0 64) 0 }) s
       s.runs 0 = true ∧ s.canFinish 0 = true ∧ (s.core 0).stopping = false ∧ (s.core 0).hold = .pushMid 6 0 0 127 15 (s.spdReads 0 (s.qOff 0 (s.iw 0)) 64) 0
        ∧ s.qOff 0 (s.iw 0) = 0 ∧ (∀ e ∈ [[], oneCe 64], ((s.asIssued 0 6).eccErrs 0 (eccAt 64 (8 * nw - 64) e)).spdStatus 0 64 (8 * nw - 64) = 0))
    ∧ (let s := onCore 0 (fun c => { c with hold := .push }) (queueing (qW 0x90 8 0 0) 1)
       s.canIssue 0 0x90 = true ∧ (s.core 0).hold = .push ∧ s.qOff 0 (s.iw 0) = 0
        ∧ (∀ e ∈ [[], oneCe 0], (s.eccErrs 0 (eccAt 0 64 e)).spdStatus 0 0 64 = 0) ∧ (s.pushTarget 0 15 1).isSome = true)
    ∧ (∀ opc ∈ [0x92, 0x93], let s := holding 0 1 (queueing (qW opc 1 0 0) 1); s.canIssue 0 opc = true ∧ s.queueBad 0 (s.qHandle 0 (s.iw 0)) = false) := by
  decide +kernel

/-- Core 0's empty queue 15 lends from queue 15 of core 127, in power state `c`, which holds an item of 16 words. -/
def lending (c tr : Nat) : State :=
  holding 127 16 (onCore 127 (fun x => { x with cstate := c }) (put [(.qdLendEn, 0, 15, 1), (.qdLendCore, 0, 15, 127), (.qdLendQ, 0, 15, 15),
    (.qdEn, 127, 15, 1), (.qdCells, 127, 15, 4), (.qdHead, 127, 15, 0)] (queueing (qW 0x91 16 (0xC0000 - 128) tr) 0)))

/-- Core 0's empty queue 15 lends from its own queue 14, which holds an item of one word. -/
def lendingOwn : State :=
  onCore 0 (fun c => { c with items := [⟨14, 1, 1, false, 0, 9, 3⟩] }) (put [(.qdLendEn, 0, 15, 1), (.qdLendCore, 0, 15, 0), (.qdLendQ, 0, 15, 14),
    (.qdEn, 0, 14, 1), (.qdCells, 0, 14, 4), (.qdFlight, 0, 14, 9), (.qdDepth, 0, 14, 1)] (queueing (qW 0x91 16 (0xC0000 - 128) 0) 0))

theorem wit_queue_pop :
    (∀ x ∈ ([(16, 16), (1, 1), (8, 9), (16, 1)] : List (Nat × Nat)), ∀ h : Bool,
      let s := onCore 0 (fun c => { c with hold := if h then .pop else .none }) (holding 0 x.2 (queueing (qW 0x91 x.1 (0xC0000 - 8 * x.2) 0) 0))
      let w := s.iw 0
      let a0 := s.cellAt 0 15 (s.reg .qdHead 0 15)
      let a1 := s.cellAt 0 15 (s.reg .qdHead 0 15 + 1)
      let n0 := 8 * min x.2 8
      s.canIssue 0 0x91 = true ∧ (s.core 0).sb = [] ∧ (s.core 0).conflict [] [rowsOf (s.qOff 0 w) (8 * x.1)] = false
        ∧ s.qOff 0 w = 0xC0000 - 8 * x.2 ∧ s.queueBad 0 (s.qHandle 0 w) = false ∧ hIndex (s.qHandle 0 w) = 15
        ∧ ((s.core 0).itemsOf 15).map (fun i => i.words) = [x.2]
        ∧ (∀ e ∈ [[], oneCe a0, oneCe a1], let met := s.eccErrs 0 (eccAt a0 n0 e ++ eccAt a1 (8 * x.2 - n0) e)
            met.spdStatus 0 a0 n0 = 0 ∧ met.spdStatus 0 a1 (8 * x.2 - n0) = 0)
        ∧ s.spdAnyOff 0 (s.qOff 0 w) (8 * x.2) = false ∧ GoesOn s 0) := by
  unfold GoesOn; decide +kernel

theorem wit_queue_pop_lends :
    (∀ tr, tr < 2 → let s := queueing (qW 0x91 1 0 tr) 0
       s.canIssue 0 0x91 = true ∧ (s.core 0).itemsOf 15 = [] ∧ s.lendAsleep 0 15 = false ∧ s.lendFrom 0 15 = none ∧ s.queueBad 0 (s.qHandle 0 (s.iw 0)) = false)
    ∧ (let s := lending 1 0
       s.canIssue 0 0x91 = true ∧ (s.core 0).hold = .none ∧ (s.core 0).itemsOf 15 = [] ∧ s.lendAsleep 0 15 = true)
    ∧ (∀ x ∈ [(lending 0 0, 127, 15, 16), (lendingOwn, 0, 14, 1)],
       let s : State := x.1
       let a0 := s.cellAt x.2.1 x.2.2.1 0
       let a1 := s.cellAt x.2.1 x.2.2.1 1
       let n0 := 8 * min x.2.2.2 8
       s.canIssue 0 0x91 = true ∧ (s.core 0).hold = .none ∧ (s.core 0).itemsOf 15 = [] ∧ s.lendFrom 0 15 = some (x.2.1, x.2.2.1)
        ∧ ((s.core x.2.1).itemsOf x.2.2.1).map (fun i => i.words) = [x.2.2.2] ∧ s.reg .qdHead x.2.1 x.2.2.1 = 0
        ∧ (∀ e ∈ [[], oneCe a0], let met := s.eccErrs x.2.1 (eccAt a0 n0 e ++ eccAt a1 (8 * x.2.2.2 - n0) e)
            met.spdStatus x.2.1 a0 n0 = 0 ∧ met.spdStatus x.2.1 a1 (8 * x.2.2.2 - n0) = 0)
        ∧ s.spdAnyOff 0 (0xC0000 - 128) (8 * x.2.2.2) = false) := by
  decide +kernel

/-- An item of `n` words for queue 15 of core 0, and a CREDIT or FLUSH for its send entry 15. -/
def anItem (n flight : Nat) : Msg :=
  { op := .item, src := 9, sub := 3, dst := 0, dsub := 15, flight := flight, data := 0xB9 :: List.replicate (8 * n - 1) 0x12 }
def aCredit (op : MsgOp) (n : Nat) : Msg := { op := op, src := 127, sub := 15, dst := 0, dsub := 15, arg := n }

/-- A core in the middle of a two-cell push from send entry 15 to queue 15 of core 127. -/
def pushingMid : State := onCore 0 (fun c => { c with hold := .pushMid 6 0 0 127 15 [] 0 }) (queueing (qW 0x90 16 0 0) 0)

theorem wit_queue_messages :
    (∀ n ∈ [1, 8, 9, 16], let m := anItem n 9
     let s := sent m (queueing 0 0)
     let a0 := s.cellAt 0 15 (s.reg .qdTail 0 15)
     let a1 := s.cellAt 0 15 (s.reg .qdTail 0 15 + 1)
     s.arrival .item 0 = some m ∧ s.answers 0 = true ∧ m.srcChip = s.chip ∧ s.reg .qdEn 0 15 = 1 ∧ m.flight = s.reg .qdFlight 0 15
      ∧ genOlder m.arg (s.reg .qdGen 0 15) = false
      ∧ (s.core 0).usedCells 15 + cellsOf n ≤ s.reg .qdCells 0 15 ∧ (s.core 0).resync = [] ∧ m.data.length = 8 * n
      ∧ s.spdAnyOff 0 a0 (8 * min n 8) = false ∧ s.spdAnyOff 0 a1 (8 * n - 8 * min n 8) = false) := by
  decide +kernel

theorem wit_queue_messages_dropped :
    (let s := sent (anItem 1 9) (put [(.qdEn, 0, 15, 0)] (queueing 0 0)); s.arrival .item 0 = some (anItem 1 9) ∧ s.answers 0 = true ∧ s.reg .qdEn 0 15 = 0)
    ∧ (let s := sent (anItem 1 8) (queueing 0 0); s.arrival .item 0 = some (anItem 1 8) ∧ s.reg .qdEn 0 15 = 1 ∧ 8 ≠ s.reg .qdFlight 0 15 ∧ 24 ≤ (anItem 1 8).link)
    ∧ (let s := sent (anItem 1 9) (put [(.qdGen, 0, 15, 1)] (queueing 0 0)); s.arrival .item 0 = some (anItem 1 9) ∧ s.answers 0 = true ∧ s.reg .qdEn 0 15 = 1
        ∧ genOlder (anItem 1 9).arg (s.reg .qdGen 0 15) = true) := by
  decide +kernel

theorem wit_credit_and_flush :
    (∀ op ∈ [MsgOp.credit, MsgOp.flush], let s := sent (aCredit op 127) (queueing 0 8191)
       s.arrival op 0 = some (aCredit op 127) ∧ s.reg .qsMode 0 15 = 0 ∧ (s.core 0).hold = .none)
    ∧ (let s := sent (aCredit .credit 1) (put [(.qsMode, 0, 15, 1), (.qgMember, 0, 31, 127 * 2 ^ 8 + 15 * 2 ^ 15 + 2 ^ 22)] (queueing 0 0))
       s.arrival .credit 0 = some (aCredit .credit 1) ∧ s.reg .qsMode 0 15 ≠ 0 ∧ s.memberFor 0 15 0 127 15 = some 7)
    ∧ (∀ f ∈ [0, 16], let m : Msg := { op := .credit, src := 127, sub := 15, dst := 184, dsub := 16 * f + 15, arg := 1 }
       (sent m (queueing 0 0)).arrival .credit 0 = some m)
    ∧ (let s := sent (aCredit .flush 5) pushingMid
       s.arrival .flush 0 = some (aCredit .flush 5) ∧ (s.core 0).hold = .pushMid 6 0 0 127 15 [] 0 ∧ hIndex (s.qHandle 0 (s.iw 0)) = 15 ∧ GoesOn s 0
        ∧ (s.core 0).stopping = false ∧ s.reg .qsMode 0 15 = 0) := by
  unfold GoesOn; decide +kernel

/-! ### Memory requests and their answers -/

/-- Partition 0 maps its first gigabyte to device address 0 through the table at 8 KiB, in one window. -/
def mapped (s : State) : State :=
  let s := put [(.partXlateEn, 0, 0, 1), (.partXlateBase, 0, 0, 1), (.winV, 0, 0, 1), (.winBase, 0, 0, 0), (.winPages, 0, 0, 511)] (part0 s)
  { s with mem := { s.mem with cells := [(8192, 3)] } }

/-- A request of core 1 for `n` bytes at `a` in partition `p`. -/
def aReq (op : MsgOp) (p a n : Nat) : Msg :=
  { op := op, src := 1, sub := 1, dst := 188, part := p, tag := 9, seq := 3, addr := a, len := n, data := if op = MsgOp.read ∨ op = MsgOp.ledgerSettle then [] else List.replicate n 7 }

theorem wit_memory_requests :
    (∀ op ∈ [MsgOp.read, .write, .atomic, .ledgerAdd, .ledgerSettle], ∀ p ∈ [0, 16],
      (let m := aReq op p (2 ^ 30 - 64) 64
       let s := sent m (mapped State.reset)
       s.arrival op 0 = some m ∧ s.reqPart m = some p ∧ s.reg .partState 0 0 < 2 ∧ (s.xlate p m.addr m.op.writes).any (fun da => (s.heldBy da).isNone) = true
        ∧ (let s := s.setMover 1 { s.mover 1 with phase := 3, src := (2 ^ 30 - 64) / 2 ^ 21 * 2 ^ 21 }
           s.arrival op 0 = some m ∧ (s.xlate p m.addr m.op.writes).any (fun da => decide (s.heldBy da = some 1)) = true))
      ∧ (let m := aReq op p (2 ^ 40) 64
         let s := sent m (mapped State.reset)
         s.arrival op 0 = some m ∧ s.reqPart m = some p ∧ s.xlate p m.addr m.op.writes = none ∧ m.srcChip = s.chip))
    ∧ (let m := aReq .write 0 0 64
       let s := sent m (put [(.partState, 0, 0, 2)] (mapped State.reset))
       s.arrival .write 0 = some m ∧ s.reqPart m = some 0 ∧ 2 ≤ s.reg .partState 0 0 ∧ m.srcChip = s.chip) := by
  decide +kernel

/-- A request at the controller of its device address. -/
def queued (m : Msg) (s : State) : State := s.setCtlQueue (ctlOf m.addr) [⟨m, 5, 2⟩, ⟨aReq .read 16 m.addr 64, 6, 3⟩]

theorem wit_controller_serves :
    (∀ op ∈ [MsgOp.read, .write, .atomic, .ledgerAdd, .ledgerSettle], ∀ a ∈ [0, 0x3FBFFFFFC0, 0x4000000000],
      let m := { aReq op 16 a 64 with code := if op = MsgOp.ledgerAdd then 7 else if op = MsgOp.ledgerSettle then 8 else 0x31 }
      let s := queued m State.reset
      s.pickReq 100 [] (s.ctlQueue (ctlOf a)) = some ⟨m, 5, 2⟩ ∧ inControl a = false ∧ ctlOf a < 20 ∧ s.mem.anyPoison a 64 = false ∧ m.poison = false ∧ 0 < m.len)
    ∧ ctlOf 0x3FBFFFFFC0 = 0 ∧ ctlOf 0x4000000000 = 8 := by
  decide +kernel

/-- A transfer that waits for the request of tag `tag`, its last one, of 8 bytes at scratchpad offset 0xBFFF8. -/
def awaiting (tag dir : Nat) : State :=
  onCore 0 (fun c => { c with xfers := [{ anXfer 0 0 false with dir := dir, out := [(tag, ⟨4, 0, 8, [(0, 0xBFFF8, 8, 8)], false⟩)] }] }) (part0 (tile 0))

/-- An answer to core 0 under `tag`. -/
def anAnswer (op : MsgOp) (tag code : Nat) : Msg :=
  { op := op, src := 188, dst := 0, tag := tag, code := code, data := if op = MsgOp.readData then [1, 2, 3, 4, 5, 6, 7, 8] else [] }

theorem wit_answers :
    (let s := sent (anAnswer .readData 12 0) (awaiting 12 0)
     s.arrival .readData 0 = some (anAnswer .readData 12 0) ∧ ((s.core 0).xferOf 12).any (fun x => x.1.todo.isEmpty && decide (x.1.dir = 0 ∧ dAop x.1.desc = 0 ∧ x.2.pieces = [(0, 0xBFFF8, 8, 8)])) = true
      ∧ s.spdAnyOff 0 0xBFFF8 8 = false)
    ∧ (∀ code ∈ [0, 0x62], let s := sent (anAnswer .complete 12 code) (awaiting 12 1)
       s.arrival .complete 0 = some (anAnswer .complete 12 code) ∧ ((s.core 0).xferOf 12).any (fun x => x.1.todo.isEmpty && decide (x.1.dir = 1 ∧ x.1.eng = 0 ∧ x.1.fail = 0)) = true)
    ∧ (∀ reason ∈ [1, 2, 3, 4, 5], let s := sent (anAnswer .nack 12 reason) (awaiting 12 1)
       s.arrival .nack 0 = some (anAnswer .nack 12 reason) ∧ ((s.core 0).xferOf 12).any (fun x => x.1.todo.isEmpty && decide (x.1.dir = 1 ∧ x.1.fail = 0)) = true)
  := by
  decide +kernel

theorem wit_refused_answers :
    (let s := sent (anAnswer .nack 5 1) (onCore 0 (fun c => { c with posted := [⟨5, 3, [], 0, 0, 16383, 1, 5⟩] }) (part0 (tile 0)))
     s.arrival .nack 0 = some (anAnswer .nack 5 1) ∧ (s.core 0).xferOf 5 = none ∧ (s.core 0).hold ≠ .test 5 ∧ GoesOn s 0 ∧ (s.core 0).stopping = false
      ∧ ((s.core 0).posted.find? (fun x => decide (x.tag = 5))).isSome = true)
    ∧ (let s := sent (anAnswer .nack 0xFF8F 3) (queueing 0 4)
       s.arrival .nack 0 = some (anAnswer .nack 0xFF8F 3) ∧ s.reg .qsMode (bits 0xFF8F 8 7) (bits 0xFF8F 0 4) = 0) := by
  unfold GoesOn; decide +kernel

/-! ### Coherence -/

/-- Line 2 ^ 24 − 1 in directory state `d`, in cache `n` as `c`, with message `k` for cache `n`. -/
def theLine : Nat := 2 ^ 24 - 1
def line (n : Nat) (c : CacheLine) (d : DirEnt) (l : List CohKind) : State :=
  let s := (State.reset.setCline n theLine c).setDir theLine d
  { s with ms := { s.ms with coh := l.map (fun k => ⟨k, n, theLine, 5⟩) } }

/-- What the requests of DirectoryRequestsServed suppose of a line and its cache. -/
def asks (s : State) (n : Nat) (k : CohKind) : Bool :=
  let c := s.cline n theLine
  decide (c.pend = 0 ∧ c.put = 0) && decide ((s.ms.cache.filter (fun x => decide (x.1 / 2 ^ 24 = n) && decide (x.2.st ≠ 0))).length < 512)
    && !(s.reissued k n theLine) && s.portOpen Cls.mgmt n && (s.dirEnt theLine).waiting.isEmpty && (s.ms.dir.all (fun x => x.2.held.isEmpty)) && decide ((s.tracked (dirCtl theLine)).length < 2048)

theorem wit_directory :
    (∀ d ∈ ([{}, { st := 1, sharers := [3] }, { st := 2, owner := 3 }] : List DirEnt), asks (line 16 {} d []) 16 .gets = true ∧ (line 16 {} d []).dirEnt theLine = d
      ∧ d.owner ≠ 16 ∧ ((line 16 {} d []).cline 16 theLine).st = 0)
    ∧ (∀ x ∈ ([({}, {}), ({ st := 1 }, { st := 1, sharers := [16] }), ({}, { st := 1, sharers := [16] }), ({ st := 1 }, { st := 1, sharers := [3, 16] })] : List (CacheLine × DirEnt)),
      asks (line 16 x.1 x.2 []) 16 .getx = true ∧ ((line 16 x.1 x.2 []).cline 16 theLine).st ≤ 1 ∧ ((line 16 x.1 x.2 []).dirEnt theLine) = x.2) := by
  decide +kernel

theorem wit_cache_messages :
    (∀ st ∈ [2, 3], let s := line 0 { st := st, data := 9 } { st := 2, owner := 0 } []
       (s.cline 0 theLine).st = st ∧ (s.dirEnt theLine).st = 2 ∧ (s.dirEnt theLine).owner = 0 ∧ asks { s with ms := { s.ms with cache := [] } } 0 .gets = true)
    ∧ (∀ k ∈ [CohKind.dataS, .dataX, .ackX, .wbAck, .retry, .inv, .recall],
      (line 16 { pend := 2, store := some 7 } {} [k]).cohFirst k 16 theLine = some ⟨k, 16, theLine, 5⟩)
    ∧ (∀ st ∈ [1, 2, 3], let s := line 16 { st := st } { st := 3, toAck := [16], owner := 16 } [.recall]
       s.cohFirst .recall 16 theLine = some ⟨.recall, 16, theLine, 5⟩ ∧ (s.cline 16 theLine).st = st)
    ∧ (let s := line 16 { pend := 1, reissue := true } {} []; (s.cline 16 theLine).reissue = true ∧ (s.cline 16 theLine).pend ≠ 0 ∧ s.portOpen Cls.mgmt 16 = true)
    ∧ theLine < 2 ^ 24 := by
  decide +kernel

theorem wit_ledger_order : [(0, 0x3F800000), (5, 1), (0, 0xBF800000)].Perm [(5, 1), (0, 0xBF800000), (0, 0x3F800000)] := by decide +kernel

/-! ### Controllers, movers and windows -/

/-- Mover 1 in a phase, moving partition 0's page 0. -/
def mover (v : Mover) : State :=
  let s := put [(.moveGo, 0, 1, 1), (.partXlateEn, 0, 0, 1), (.partXlateBase, 0, 0, 1), (.winV, 0, 0, 1), (.winPages, 0, 0, 511)] (part0 State.reset)
  { s with ms := { s.ms with mv1 := v }, mem := { s.mem with cells := [(8192, 1), (8193, 0x50), (0x5000, 5)] } }

theorem wit_mover_events :
    (put [(.mcScrubH, 0, 0, 1)] State.reset).reg .mcScrubH 0 0 ≠ 0 ∧ State.reset.reg .mcCeCount 0 0 = 0 ∧ ctlOf 0 = 0
    ∧ (∀ v ∈ ([{ phase := 2, marked := List.range 64, passes := 1 }, { phase := 2, marked := List.range 65, passes := 4 }] : List Mover),
      ((mover v).mover 1).phase = 2 ∧ ((mover v).bwPort Cls.mover 1).late = 0 ∧ (((mover v).mover 1).marked.length ≤ 64 ∨ 4 ≤ ((mover v).mover 1).passes))
    ∧ (∀ v ∈ ([{ phase := 1 }, { phase := 2, marked := List.range 65, passes := 3 }] : List Mover),
      (((mover v).mover 1).phase = 1 ∨ (((mover v).mover 1).phase = 2 ∧ 64 < ((mover v).mover 1).marked.length ∧ ((mover v).mover 1).passes < 4))
        ∧ (mover v).portOpen Cls.mover 1 = true)
    ∧ (let s := mover { phase := 3, src := 0, dst := 2 ^ 21 }
       (s.mover 1).phase = 3 ∧ s.pageBusy (s.mover 1).src = false ∧ (s.mover 1).pid = none ∧ (s.mover 1).held = [] ∧ (s.mover 1).marked = []
        ∧ s.leaf2M 0 0 = some (0x5000, 5) ∧ inControl 0x5000 = false)
    ∧ (let s := { State.reset with ms := { State.reset.ms with ports := [(3, { count := 5, debt := 1, overd := 4 }), (1791, { count := 1 })] } }
       tabWf ({} : BwPort) s.ms.ports = true ∧ s.ms.ports.all (fun x => x.2.held.isEmpty && decide (x.2.late = 0)) = true ∧ s.ms.telem = []) := by
  decide +kernel

/-! ### The control space -/

/-- The part after its start-up, with all cores awake. -/
def up (l : List (Fld × Nat × Nat × Nat)) : State :=
  onCore 127 (fun c => { c with cstate := 0 }) (onCore 0 (fun c => { c with cstate := 0 }) (st (l ++ [(.kprReady, 0, 0, 1), (.kprStep, 0, 0, 11)])))
def acc (who : Requester) (off size data : Nat) : Access := ⟨who, off, size, BitVec.ofNat 64 data⟩

/-- The place of an access. -/
def atLoc (s : State) (a : Access) : Loc := (s.place a.who a.off).getD ⟨.kpr, 0, 0, 0⟩

/-- An access opens a place of no window. -/
def opensReg (s : State) (a : Access) : Bool :=
  s.reaches a.who && sizeOk a.off a.size && decide (msixLoc a.who a.off = none) && decide (s.place a.who a.off = some (atLoc s a))
    && decide ((atLoc s a).blk.ofCore = true → s.islandOff (atLoc s a).inst = false ∧ (s.core (atLoc s a).inst).cstate = 0)
    && !(s.lockedOut a.who (atLoc s a)) && decide ((atLoc s a).win = none) && decide ((atLoc s a).inst < 128)

/-- Accesses to plain fields: ones the field's table lists, and ones it does not. -/
def legalAcc : List Access :=
  [acc .keeper (0x4000000 + 127 * 0x180000 + 0x142000) 4 15, acc .pf 0x124004 4 (2 ^ 32 - 1), acc .pf 8 4 16, acc (.vf 15) 0x108 8 (1008 * 2 ^ 30), acc .pf 0x100010 4 4]
def illegalAcc : List (Access × Fld) := [(acc (.vf 15) 0x108 8 (1009 * 2 ^ 30), .cmdAperture), (acc .pf 0x100010 4 0, .kprResetKind)]

theorem wit_register_writes :
    (∀ a ∈ legalAcc, let s := up []
       let fs := (atLoc s a).under a.size
       opensReg s a = true ∧ (∀ x ∈ fs, x.1 ∈ plainRw ++ rangedRw ∨ quiet x.1 ((atLoc s a).ones a.size a.data.toNat x.1 x.2)) ∧ (∃ x ∈ fs, x.1 ∈ plainRw ++ rangedRw)
        ∧ ∀ x ∈ fs, x.1 ∈ rangedRw → s.legal x.1 (atLoc s a).inst x.2 ((atLoc s a).merge a.size a.data.toNat x.1 x.2 (s.reg x.1 (atLoc s a).inst x.2)) = true)
    ∧ (∀ p ∈ illegalAcc, let s := up []
       let a := p.1
       let fs := (atLoc s a).under a.size
       opensReg s a = true ∧ (∀ x ∈ fs, x.1 ∈ plainRw ++ rangedRw ∨ quiet x.1 ((atLoc s a).ones a.size a.data.toNat x.1 x.2))
        ∧ (p.2, 0) ∈ fs ∧ s.legal p.2 (atLoc s a).inst 0 ((atLoc s a).merge a.size a.data.toNat p.2 0 (s.reg p.2 (atLoc s a).inst 0)) = false)
    ∧ (let s := up []
       let a := acc .pf 0x100500 8 0xFFFF
       let fs := (atLoc s a).under a.size
       opensReg s a = true ∧ (∀ x ∈ fs, x.1.spec.acc = .w1c ∨ quiet x.1 ((atLoc s a).ones a.size a.data.toNat x.1 x.2)) ∧ (.kprGstatus, 0) ∈ fs) := by
  unfold quiet; decide +kernel
/-- An access reaches place `l` and no lock keeps it out. -/
def opens (s : State) (a : Access) (l : Loc) : Bool := opensReg { s with pending := [] } a && decide (atLoc s a = l)
def reachesAt (s : State) (who : Requester) (off size : Nat) (l : Loc) : Bool :=
  s.reaches who && sizeOk off size && decide (msixLoc who off = none) && decide (s.place who off = some l)

/-- The blocks of core 127. -/
def core127 (o : Nat) : Nat := 0x4000000 + 127 * 0x180000 + o

theorem wit_register_reads :
    (∀ x ∈ ([(.pf, 0x120000, 8), (.vf 0, 0x110, 8), (.keeper, core127 0x142000, 4)] : List (Requester × Nat × Nat)), let s := up []
       let l := atLoc s (acc x.1 x.2.1 x.2.2 0)
       reachesAt s x.1 x.2.1 x.2.2 l = true ∧ l.win = none ∧ l.assigned x.2.2 = true ∧ l.inst < 256 ∧ (l.blk.ofCore = true → s.islandOff l.inst = false ∧ (s.core l.inst).cstate = 0)
        ∧ l.under x.2.2 ≠ [] ∧ ∀ y ∈ l.under x.2.2, y.1 ≠ .kprIntStatus ∧ y.1 ≠ .kprCommitPending)
    ∧ (let s := up []; s.reaches .pf = true ∧ msixLoc .pf 0x130000 = none ∧ s.place .pf 0x130000 = none ∧ sizeOk 0x130000 8 = true)
    ∧ (∀ x ∈ [(0, true), (1, false)], let s := onCore 127 (fun c => { c with cstate := x.1 }) (if x.2 then (up []).setFenced 127 true else up [])
       let l := atLoc s (acc .pf (core127 0x100000) 8 0)
       s.place .pf (core127 0x100000) = some l ∧ l.assigned 8 = true ∧ l.blk.ofCore = true ∧ l.inst = 127 ∧ s.islandOff l.inst = x.2 ∧ (s.core l.inst).cstate = x.1)
    ∧ (let s := up []; (∃ b, b < 256 ∧ msixLoc (.vf 15) 0x800F8 = some (.entry 15 b)) ∧ sizeOk 0x800F8 8 = true ∧ s.rd .kprReady = 1) := by
  decide +kernel

/-- A halted core 127 whose WAIT had its wake during the halt. -/
def wokenHalted : State :=
  onCore 127 (fun c => { c with waits := [⟨5, false, 0, 3, 1, 0, 2, 0⟩], hold := .wait 5, tasked := true }) (up [(.dbgEn, 127, 0, 1), (.dbgHalted, 127, 0, 1), (.coreRun, 127, 0, 1)])

theorem wit_debug_writes :
    (let s := wokenHalted
     opens s (acc .pf (core127 0x120000) 8 (9 + 0x3FF0)) ⟨.dbg, 0x12, 127, 0⟩ = true ∧ s.reg .dbgEn 127 0 = 1 ∧ s.reg .dbgHalted 127 0 = 1 ∧ bits (9 + 0x3FF0) 1 3 = 4
      ∧ (s.core 127).waits.find? (fun x => decide (x.state = 2)) = some ⟨5, false, 0, 3, 1, 0, 2, 0⟩
      ∧ (s.core 127).waits.find? (fun x => decide (x.wid = 5)) = some ⟨5, false, 0, 3, 1, 0, 2, 0⟩ ∧ (s.core 127).hold = .wait 5
      ∧ (s.core 127).capture = none ∧ (s.core 127).qFront = [])
    ∧ (∀ x ∈ ([(3, 0), (5, 1), (9, 1), (5, 0), (9, 0)] : List (Nat × Nat)), let s := up [(.dbgEn, 127, 0, 1), (.dbgHalted, 127, 0, x.2)]
       opens s (acc .pf (core127 0x120000) 8 (x.1 + 0x3FF0)) ⟨.dbg, 0x12, 127, 0⟩ = true ∧ s.reg .dbgEn 127 0 = 1 ∧ s.reg .dbgHalted 127 0 = x.2
        ∧ (s.core 127).waits = [] ∧ (s.core 127).qFront = [])
    ∧ (∀ r, r < 2 → let s := up [(.coreRun, 127, 0, r)]
       opens s (acc .pf (core127 0x120000) 8 1) ⟨.dbg, 0x12, 127, 0⟩ = true ∧ s.reg .coreRun 127 0 = r ∧ s.reg .dbgEn 127 0 ≠ 1 ∧ s.reg .dbgWrap 127 0 = 0
        ∧ s.reg .dbgFilter 127 0 = 0)
    ∧ (∀ v ∈ [0x0F, 0x10], opens (up []) (acc .keeper (core127 0x120078) 8 v) ⟨.dbg, 0x12, 127, 0x40 + 8 * 7⟩ = true) := by
  decide +kernel

theorem wit_core_stores :
    (∀ r, r < 2 → let s := up [(.coreRun, 127, 0, r)]
       opensReg s (acc .pf (core127 0x120000) 8 1) = true ∧ s.runs 127 = decide (r = 1)
        ∧ reachesAt s .pf (core127 0x11FFF0) 8 ⟨.core, 0x11, 127, 0x10000 + 16 * 4095⟩ = true ∧ s.lockedOut .pf ⟨.core, 0x11, 127, 0x10000 + 16 * 4095⟩ = false
        ∧ reachesAt s .pf (core127 0x141FFC) 4 ⟨.swg, 0x13, 127, 0x1000 + 4 * 1023⟩ = true ∧ s.lockedOut .pf ⟨.swg, 0x13, 127, 0x1000 + 4 * 1023⟩ = false
        ∧ s.islandOff 127 = false ∧ (s.core 127).cstate = 0
        ∧ (∀ v, v < 4 → opens s (acc .pf (core127 0x143000) 8 v) ⟨.spd, 0x15, 127, 0⟩ = true))
    ∧ (∀ v ∈ [0x3FFF, 0xC000, 0x8000], let s := onCore 127 (fun c => { c with pairAct := 0x3FFF, cstate := 0 }) (up [(.spdPairState, 127, 0, 0x3FFF)])
       opens s (acc .pf (core127 0x143008) 4 v) ⟨.spd, 0x15, 127, 8⟩ = true ∧ ((∀ p, p < 8 → bits v (2 * p) 2 ≠ 2) ∨ (∃ p, p < 8 ∧ bits v (2 * p) 2 = 2))
        ∧ (s.core 127).pairRun = []) := by
  decide +kernel

/-! ### Registers written as a whole -/

/-- QD word 0: enable, base, cells, lend. -/
def qdW (en base cells lend core q lmin : Nat) : Nat := en + base * 2 + cells * 2 ^ 15 + lend * 2 ^ 35 + core * 2 ^ 36 + q * 2 ^ 43 + lmin * 2 ^ 47
def qdAcc (d : Nat) : Access := acc .pf (core127 0x1004F0) 8 d

theorem wit_queue_registers :
    (∀ d ∈ [qdW 1 12287 1 0 0 0 0, qdW 1 8192 4096 1 126 15 8191, qdW 0 0 0 0 0 0 0, qdW 1 0 4097 0 0 0 0, qdW 1 12287 2 0 0 0 0, qdW 1 0 1 1 0 0 0, qdW 1 12289 0 0 0 0 0],
      let s := up [(.partState, 0, 0, 1), (.partQuads, 0, 0, 2 ^ 31)]
      opens s (qdAcc d) ⟨.core, 0x11, 127, 0x400 + 16 * 15⟩ = true ∧ s.reg .qdEn 127 15 = 0
        ∧ (bits d 36 7 = 126 → s.partOf 126 = s.partOf 127 ∧ s.reg .qdFlight 126 15 = s.reg .qdFlight 127 15)
        ∧ (bits d 35 1 = 1 ∧ bits d 36 7 = 0 → s.partOf 0 ≠ s.partOf 127))
    ∧ (let s := up [(.qdEn, 127, 15, 1), (.qdBase, 127, 15, 5), (.qdCells, 127, 15, 6)]
       opens s (qdAcc (qdW 0 5 6 0 0 0 0)) ⟨.core, 0x11, 127, 0x400 + 16 * 15⟩ = true ∧ s.reg .qdEn 127 15 = 1 ∧ s.reg .qdBase 127 15 = 5 ∧ s.reg .qdCells 127 15 = 6
        ∧ s.reg .qdLendEn 127 15 = 0 ∧ s.reg .qdLendCore 127 15 = 0 ∧ s.reg .qdLendQ 127 15 = 0 ∧ s.reg .qdLendMin 127 15 = 0)
    ∧ (let s := up [(.qdEn, 127, 15, 1), (.qdBase, 127, 15, 5), (.qdCells, 127, 15, 6)]
       opens s (qdAcc (qdW 0 5 7 0 0 0 0)) ⟨.core, 0x11, 127, 0x400 + 16 * 15⟩ = true
        ∧ opens s (acc .pf (core127 0x1004F0) 4 (qdW 0 5 6 0 0 0 0)) ⟨.core, 0x11, 127, 0x400 + 16 * 15⟩ = true
        ∧ opens s (acc .pf (core127 0x1004F4) 4 8) ⟨.core, 0x11, 127, 0x404 + 16 * 15⟩ = true)
    ∧ (∀ e, e < 2 → let s := up [(.qdEn, 127, 15, e)]
       opens s (acc .pf (core127 0x1004F8) 8 0xFFFF) ⟨.core, 0x11, 127, 0x408 + 16 * 15⟩ = true ∧ s.reg .qdEn 127 15 = e ∧ s.reg .qdFlight 127 15 ≠ 0xFFFF)
    ∧ (∀ q ∈ [1, 4096, 0, 4097], opens (up []) (acc .pf (core127 0x1005F0) 8 (q * 2 ^ 21 + 1)) ⟨.core, 0x11, 127, 0x500 + 16 * 15⟩ = true ∧ bits (q * 2 ^ 21 + 1) 21 13 = q)
    ∧ (∀ x ∈ [(0, 1), (1, 1), (2, 0)], let s := up [(.qsQuota, 127, 15, 2048 * x.1)]
       let v := putBits (s.reg .qsQuota 127 15) 0 11 x.2
       opens s (acc .pf (core127 0x1005F0) 4 (x.2 * 2 ^ 21)) ⟨.core, 0x11, 127, 0x500 + 16 * 15⟩ = true ∧ v = 2048 * x.1 + x.2 ∧ bits (x.2 * 2 ^ 21) 21 11 = x.2)
    ∧ (let s := up [(.qsQuota, 127, 15, 4096)]; putBits (s.reg .qsQuota 127 15) 0 11 1 = 4097) := by
  decide +kernel

theorem wit_sluice_registers :
    (∀ x ∈ ([(0, 0), (2, 0x100), (1, 2 ^ 48 - 1)] : List (Nat × Nat)), let s := up []
       let d := x.2 + x.1 * 2 ^ 48
       opens s (acc .pf (0x140000 + 8 * 16383) 8 d) ⟨.slc, 8, 0, 8 * 16383⟩ = true ∧ s.resetBad 16383 (bits d 0 48) = false ∧ cGlobal (bits d 48 8) = false
        ∧ (cMode (bits d 48 8) = 2 → bExpect (bits d 0 48) ≠ 0) ∧ s.waiters = [])
    ∧ (let s := up [(.sluiceCtrl, 0, 16383, 2), (.sluiceCount, 0, 16383, 0x100)]
       opens s (acc .pf (0x140000 + 8 * 16383) 8 0xFF) ⟨.slc, 8, 0, 8 * 16383⟩ = true ∧ s.resetBad 16383 0xFF = true)
    ∧ (∀ n ∈ [1, 2], let s := up [(.slcPartEn, 0, 3, 1), (.slcPartSize, 0, 3, 8)]
       opens s (acc .pf (0x160078) 8 (16383 + n * 2 ^ 14 + 2 ^ 29)) ⟨.slc, 8, 0, 0x20000 + 8 * 15⟩ = true ∧ s.reg .slcPartBase 0 3 + s.reg .slcPartSize 0 3 ≤ 16383
        ∧ (List.range 16).all (fun q => decide (q = 3 ∨ s.reg .slcPartEn 0 q = 0)) = true) := by
  decide +kernel

/-- KLK_CTRL of link `l`. -/
def linkAcc (l d : Nat) : Access := acc .pf (0x181000 + 256 * l) 4 d

theorem wit_link_registers :
    (∀ x ∈ ([(1, 0, 2), (0, 1, 4), (2, 0, 2), (2, 0, 3), (8, 0, 3), (8, 0, 0)] : List (Nat × Nat × Nat)),
      let s := up [(.klkLocked, 0, 0, 1), (.klkTrayLog2, 0, 0, 5), (.linkHold, 0, 23, x.2.1), (.linkState, 0, 23, x.2.2)]
      opens s (linkAcc 23 x.1) ⟨.klk, 9, 0, 0x1000 + 256 * 23⟩ = true ∧ s.rd .klkLocked = 1 ∧ (23 - 14) / 2 < s.rd .klkTrayLog2
        ∧ s.reg .linkHold 0 23 = x.2.1 ∧ s.reg .linkState 0 23 = x.2.2)
    ∧ (∀ lk, lk < 2 → ∀ d ∈ [255 + 5 * 2 ^ 8, 248 + 5 * 2 ^ 8 + 2 ^ 24, 255 + 2 ^ 24],
      let s := up [(.klkLocked, 0, 0, lk)]
      opens s (acc .pf 0x180000 4 d) ⟨.klk, 9, 0, 0⟩ = true ∧ s.rd .klkLocked = lk ∧ bits d 8 3 ≤ 5 ∧ s.rd .klkStrapSlot = 0) := by
  decide +kernel

theorem wit_ring_registers :
    (∀ e, e < 2 → let s := up [(.towRingEn, 3, 15, e), (.towRingSizeLog2, 3, 15, 3)]
       opens s (acc .pf (0x300000 + 3 * 0x8000 + 32 * 15) 4 (1 + 12 * 2 + 16383 * 32)) ⟨.tow, 0xB, 3, 32 * 15⟩ = true
        ∧ (∀ d ∈ [128, 64], opens s (acc .pf (0x300000 + 3 * 0x8000 + 32 * 15 + 8) 8 d) ⟨.tow, 0xB, 3, 32 * 15 + 8⟩ = true)
        ∧ s.reg .towRingEn 3 15 = e ∧ s.reg .towRingSizeLog2 3 15 ≠ 12 ∧ s.reg .towRingBase 3 15 ≠ 128)
    ∧ (∀ v ∈ [15, 16], let s := up []
       opens s (acc (.vf 0) (0x10 + 64 * 3) 4 v) ⟨.cmd, 1, 0, 0x10 + 64 * 3⟩ = true ∧ 2 ^ s.reg .cmdSqSizeLog2 0 3 = 16)
    ∧ (let s := up [(.cmdCqTail, 16, 3, 17)]; opens s (acc .pf (0x30 + 64 * 3) 4 1) ⟨.cmd, 1, 16, 0x30 + 64 * 3⟩ = true ∧ s.reg .cmdCqSizeLog2 16 3 < 16)
    ∧ (∀ dst ∈ [2 ^ 21, 2 ^ 20], let s := put [(.kprReady, 0, 0, 1), (.kprStep, 0, 0, 11), (.moveDst, 0, 1, dst), (.moveGo, 0, 1, 0)] (mover {})
       opens s (acc .pf 0x124030 4 0x100) ⟨.mcMove, 7, 0, 0x10 + 32 * 1⟩ = true ∧ (s.mover 1).phase = 0
        ∧ (s.setReg .movePartition 0 1 0).moveBad 0 (s.reg .moveSrc 0 1) dst = decide (dst = 2 ^ 20))
    ∧ (let s := put [(.kprReady, 0, 0, 1), (.kprStep, 0, 0, 11)] (mover { phase := 1 })
       opens s (acc .pf 0x124030 4 0x100) ⟨.mcMove, 7, 0, 0x10 + 32 * 1⟩ = true ∧ (s.mover 1).phase ≠ 0) := by
  decide +kernel

theorem wit_policy_registers :
    (∀ d ∈ [1100 + 850 * 2 ^ 16, 2047 + 2047 * 2 ^ 16], opens (up []) (acc .pf 0x120000 4 d) ⟨.rsv, 3, 0, 0⟩ = true)
    ∧ opens (up []) (acc .pf 0x12007C 4 255) ⟨.rsv, 3, 0, 0x40 + 4 * 15⟩ = true
    ∧ (∀ d ∈ [1 + 3 * 2 ^ 24 + 4 * 2 ^ 28 + 5 * 2 ^ 32, 3 * 2 ^ 24 + 3 * 2 ^ 28 + 5 * 2 ^ 32], opens (up []) (acc .pf 0x122030 8 d) ⟨.bwr, 5, 0, 16 * 3⟩ = true)
    ∧ opens (up []) (acc .pf 0x120010 4 (2 ^ 18 - 1)) ⟨.rsv, 3, 0, 0x10⟩ = true
    ∧ (∀ d ∈ [1, 3], ∀ g, g < 2 → opens (up [(.kprCommitGo, 0, 0, g)]) (acc .pf 0x100038 8 d) ⟨.kpr, 2, 0, 0x38⟩ = true)
    ∧ (∀ d ∈ [0, 4, 1, 2, 5], opens (up []) (acc .pf 0x121018 4 d) ⟨.weir, 4, 0, 0x18⟩ = true) ∧ (up []).fuses.paceLock = false ∧ opens (up []) (acc .pf 0x100028 8 1) ⟨.kpr, 2, 0, 0x28⟩ = true := by
  decide +kernel

theorem wit_keeper_registers :
    (∀ h, h < 2 → opens (up []) (acc .pf (0x100130 + 8 * h) 8 (2 ^ 63)) ⟨.kpr, 2, 0, 0x130 + 8 * h⟩ = true)
    ∧ (let s := onCore 127 (fun c => { c with tasked := true }) (up [(.coreRun, 127, 0, 1)])
       opens s (acc .pf 0x100138 8 (2 ^ 63)) ⟨.kpr, 2, 0, 0x138⟩ = true ∧ s.fenced 127 = false ∧ s.launchOf 127 = none ∧ (s.core 127).tasked = true)
    ∧ (∀ w ∈ [Requester.pf, .keeper], opens (up []) (acc w 0x100700 8 0x80) ⟨.kpr, 2, 0, 0x700⟩ = true)
    ∧ opens (up [(.kprGstatus, 0, 0, 1)]) (acc .pf 0x100408 8 0x1FFF) ⟨.kpr, 2, 0, 0x408⟩ = true
    ∧ (∀ e, e < 2 → let s := up [(.kprTelemEn, 0, 0, e)]
       opens s (acc .pf 0x100600 8 65) ⟨.kpr, 2, 0, 0x600⟩ = true ∧ s.rd .kprTelemEn = e ∧ s.rd .kprTelemLoc = 0)
    ∧ (∀ k ∈ [8, 20], opens (up []) (acc .pf 0x100608 8 (k + 256)) ⟨.kpr, 2, 0, 0x608⟩ = true ∧ (up []).rd .kprTelemEn = 0) := by
  decide +kernel

/-! ### Start-up and resets -/

def env (f : Env → Env) (s : State) : State := { s with env := f s.env }

theorem wit_supply :
    (∀ l : Bool, let s := env (fun e => { e with resetLow := l }) State.reset; s.env.pwrGood = true ∧ (s.env.resetLow = true ∨ (s.rd .kprStep = 1 ∧ s.rd .kprFuseFail = 0)))
    ∧ State.reset.env.pwrEn = true ∧ (∀ t : Bool, (env (fun e => { e with thermTrip := t }) State.reset).env.thermTrip = t)
    ∧ (let s := env (fun e => { e with pwrGood := false }) State.reset; s.env.pwrEn = true ∧ s.env.pwrGood = false ∧ s.env.thermTrip = false) := by
  decide +kernel

/-- Firmware runs, and what training and fills have done. -/
def booted (step : Nat) (f : Env → Env) : State := env (fun e => f { e with firmware := true }) (st [(.kprStep, 0, 0, step)])
def hdr (ok : Bool) (svn : Nat) : ImageHdr := ⟨0, ok, BitVec.ofNat 8 svn, 0x01020003⟩

theorem wit_start_up :
    (let s := st [(.kprStep, 0, 0, 4)]; s.rd .kprStep = 4 ∧ s.env.firmware = false ∧ s.rd .kprAuthFail = 0)
    ∧ State.reset.accepts (hdr true 0) = true ∧ State.reset.accepts (hdr false 0) = false ∧ (st [(.kprFuseSvn, 0, 0, 2)]).accepts (hdr true 1) = false
    ∧ (let s := env (fun e => { e with recovery := true }) (st [(.kprStep, 0, 0, 4)]); 4 ≤ s.rd .kprStep ∧ s.env.recovery = true)
    ∧ (let s := booted 5 id; s.env.firmware = true ∧ s.env.trayKnown = false ∧ s.rd .klkLocked = 0)
    ∧ (∀ b : Bool, (booted 6 id).trained b = false ∧ (booted 6 id).env.firmware = true ∧ (booted 6 id).rd .kprStep = 6 ∧ (booted 6 id).trainFailed b = false
      ∧ (put [(.mcTrainFail, if b then 19 else 7, 0, 1)] (booted 6 id)).trainFailed b = true)
    ∧ (∀ m ∈ [0, 19], let s := booted 10 (fun e => { e with trained1 := true, trained2 := true, filled := if m = 0 then [1, 2, 3, 4, 5, 6, 7] else [8] })
       s.trained (decide (8 ≤ m)) = true ∧ s.env.keptMem = false ∧ m ∉ s.env.filled)
    ∧ (let s := booted 10 (fun e => { e with trained1 := true, trained2 := true, keptMem := true, linkTried := List.range 24 })
       s.env.trained1 = true ∧ s.env.trained2 = true ∧ s.linksTried = true ∧ s.env.keptMem = true ∧ s.rd .kprReady = 0 ∧ s.hostUp = true
        ∧ s.trainFailed false = false ∧ s.trainFailed true = false)
    ∧ (up []).hostUp = true ∧ (up []).rd .kprReady = 1 := by
  decide +kernel

/-- A started packet, opcode first. -/
def aPacket (bytes : Bytes) : Packet := { pid := 7, fn := 16, ring := 3, bytes := bytes, started := true }
def withPacket (k : Packet) (s : State) : State := { s with host := { s.host with packets := [k] } }
def resetPkt (part kind : Nat) : Packet := aPacket ([3, 0, 0, 0, 0x20, 0, 0, 0, BitVec.ofNat 8 part, 0, 0, 0, 0, 0, 0, 0, BitVec.ofNat 8 kind] ++ List.replicate 15 0)

/-- Power stands far above every floor. -/
def hot (s : State) : State := { s with pow := { s.pow with p4 := 10 ^ 9 } }

theorem wit_reset_floors :
    (∀ r, r < 2 → let s := st [(.kprStep, 0, 0, 4), (.kprReady, 0, 0, r), (.kprResetGo, 0, 0, 1), (.kprResetKind, 0, 0, 1)]
       s.env.resetWait = none ∧ s.atFloor (s.floorLeft (fun _ => true)) = true ∧ (hot s).atFloor ((hot s).floorLeft (fun _ => true)) = false
        ∧ s.rd .kprResetGo = 1 ∧ s.rd .kprResetKind = 1)
    ∧ (let s := withPacket (resetPkt 0 1) (up [])
       s.env.resetWait = none ∧ s.atFloor (s.floorLeft (fun _ => true)) = true ∧ (hot s).atFloor ((hot s).floorLeft (fun _ => true)) = false
        ∧ (hot s).startedPkt 7 3 = some (resetPkt 0 1))
    ∧ (let s := env (fun e => { e with resetWait := some true }) (up [])
       s.env.resetWait = some true ∧ s.atFloor (s.floorLeft (fun _ => true)) = true ∧ (hot s).atFloor ((hot s).floorLeft (fun _ => true)) = false)
    ∧ (let s := put [(.partState, 0, 15, 3)] (up []); s.atFloor (s.resetFloor 15) = true ∧ (hot s).atFloor ((hot s).resetFloor 15) = false) := by
  decide +kernel

theorem wit_resets :
    (∀ r, r < 2 → let s := st [(.kprStep, 0, 0, 4), (.kprReady, 0, 0, r)]; 4 ≤ s.rd .kprStep ∧ s.rd .kprReady = r)
    ∧ (∀ k, k < 5 → let s := up [(.kprResetGo, 0, 0, 1), (.kprResetKind, 0, 0, k)]; s.rd .kprResetGo = 1 ∧ s.rd .kprResetKind = k)
    ∧ ((withPacket (resetPkt 0 1) (up [])).startedPkt 7 3 = some (resetPkt 0 1) ∧ (resetPkt 0 1).get 0x10 1 = 1)
    ∧ (∀ x ∈ [1, 3], let s := put [(.kprResetGo, 0, 0, 1), (.kprResetKind, 0, 0, 2), (.kprResetPart, 0, 0, 15), (.partState, 0, 15, x)] (up [])
       s.rd .kprResetGo = 1 ∧ s.rd .kprResetKind = 2 ∧ s.rd .kprResetPart = 15 ∧ s.reg .partState 0 15 = x
        ∧ (withPacket (resetPkt 15 2) s).startedPkt 7 3 = some (resetPkt 15 2) ∧ (resetPkt 15 2).get 0x10 1 = 2 ∧ (resetPkt 15 2).part = 15)
    ∧ (∀ t : Bool, let s := onCore 127 (fun c => { c with tasked := t, stopping := t }) (up [(.kprResetGo, 0, 0, 1), (.kprResetKind, 0, 0, 3), (.kprResetMask, 0, 0, 2 ^ 127)])
       s.rd .kprResetGo = 1 ∧ (s.rd .kprResetMask).testBit 127 = true ∧ s.env.resetDone.testBit 127 = false ∧ (s.partOf 127).any (fun p => s.partBusy p) = false
        ∧ s.fenced 127 = false ∧ (s.core 127).tasked = t ∧ (s.core 127).stopping = t)
    ∧ (∀ k, k < 2 → let s := up [(.kprResetGo, 0, 0, 1), (.kprResetKind, 0, 0, 4), (.kprResetMask, 0, 0, 2 ^ 23), (.klkLocked, 0, 0, k), (.klkTrayLog2, 0, 0, 5 * k)]
       s.rd .kprResetGo = 1 ∧ s.rd .kprResetKind = 4 ∧ (s.rd .kprResetMask).testBit 23 = true ∧ s.env.resetDone.testBit 23 = false ∧ s.linkHeld 23 = decide (k = 0)) := by
  decide +kernel

/-! ### Power and pacing -/

def pow (f : Pow → Pow) (s : State) : State := { s with pow := f s.pow }

/-- A pacing frame of cycle 0x1234, 256 slots, base 7, width 3 and HOLD_ALL. -/
def frameN : Nat := let v := 0x1234 * 2 ^ 32 + 255 * 2 ^ 24 + 7 * 2 ^ 16 + 3 * 2 ^ 8 + 1
  0xAAAA * 2 ^ 64 + 0xD5 * 2 ^ 56 + v * 2 ^ 8 + crc8 (msbBits v 48) 0

/-- Chip 0 of two, locked, in which a cycle start of chip 1 arrives. -/
def paced (l : List (Fld × Nat × Nat × Nat)) (heard : List Nat) : State :=
  sent { op := .paceTime, srcChip := 1, src := 185, dst := 185, tag := 77, code := 1, addr := 63, len := 0, arg := 5 }
    (pow (fun p => { p with masters := heard }) (put l (up [(.klkTrayLog2, 0, 0, 1), (.klkLocked, 0, 0, 1)])))

theorem wit_power_events :
    (State.reset.pow.closed = false ∧ bits (BitVec.ofNat 32 0xFFFFFEC).toNat 0 8 = 236)
    ∧ (∀ r ∈ [([] : List Nat), [236]], let s := pow (fun p => { p with closed := true, recv := r }) State.reset; s.pow.closed = true ∧ s.pow.recv = r)
    ∧ (∀ sub ∈ [0, 14], let s := pow (fun p => { p with grant := [(236, 16)], meters := [(236, ⟨16, 250, sub⟩)] }) State.reset
       (tabGet (⟨s.grantUnits 236, 0, 0⟩ : Meter) 236 s.pow.meters).sub < 15 ∧ 0 < s.grantUnits 236)
    ∧ (∀ d ∈ [720000, 760000, 760001], let s := pow (fun p => { p with pacePos := some 0, demand4 := d }) State.reset; s.inSlotStart = true)
    ∧ (let n := (BitVec.ofNat 80 frameN).toNat
       bits n 64 16 = 0xAAAA ∧ bits n 56 8 = 0xD5 ∧ crc8 (msbBits (bits n 8 48) 48) 0 = bits n 0 8 ∧ bits n 16 8 ≠ 0 ∧ State.reset.rd .weirPaceSrc = 0)
    ∧ (State.reset.rd .weirPaceSrc = 0 ∧ State.reset.rd .weirSrcInUse = 0)
    ∧ (st [(.weirSrcInUse, 0, 0, 1)]).rd .weirSrcInUse = 1
    ∧ (∀ h ∈ [([] : List Nat), [1]], ∀ l ∈ [[(Fld.weirPaceSrc, 0, 0, 1)], [(Fld.weirSrcInUse, 0, 0, 1)]], let s := paced l h
       (s.arrival .paceTime 0).any (fun m => (s.pow.heardBefore m.srcChip).all (fun c => decide (m.srcChip ≤ c))) = true ∧ s.rd .weirMaster = 0
        ∧ (s.rd .weirPaceSrc = 1 ∨ s.rd .weirSrcInUse = 1))
    ∧ (let s := paced [] [3]; (s.arrival .paceTime 0).any (fun m => decide (3 ≠ m.srcChip ∧ 3 ∈ s.pow.heardBefore m.srcChip)) = true)
    ∧ (let s := paced [] [0]; (s.arrival .paceTime 0).any (fun m => decide (0 < m.srcChip ∧ 0 ∈ s.pow.heardBefore m.srcChip)) = true ∧ s.rd .weirMaster = 0)
    ∧ (let s := st [(.weirPaceSrc, 0, 0, 2)]; s.rd .weirPaceSrc = 2 ∧ s.rd .weirMaster = 0)
    ∧ (st [(.weirMaster, 0, 0, 1)]).rd .weirMaster = 1
    ∧ State.reset.rd .weirThrottleC ≤ 100 ∧ 90 < State.reset.rd .weirThrottleC - 3 ∧ State.reset.rd .weirThrottleC = 95
    ∧ (env (fun e => { e with thermN := true }) State.reset).env.thermN = true
    ∧ (∀ k ∈ [0, 7], let s := env (fun e => { e with pmbusRun := k }) State.reset
       3 * (s.pow.p4 / 4) < 100 * ((185401 : Int) - ((s.pow.p4 / 4 : Nat) : Int)).natAbs ∧ ¬ 3 * (s.pow.p4 / 4) < 100 * ((185400 : Int) - ((s.pow.p4 / 4 : Nat) : Int)).natAbs
        ∧ s.env.pmbusRun = k) := by
  decide +kernel

/-- Islands 0 and 127 request more than their MIN; `h` is whether a sensor is hot. -/
def asking (h : Bool) : State :=
  pow (fun p => { p with heldMin := h, reqs := [(0, ⟨100, 255⟩), (127, ⟨4095, 255⟩)] }) (up [])

theorem wit_epochs :
    State.reset.pow.closed = false
    ∧ (∀ h : Bool, let s := asking h; s.pow.closed = false ∧ s.pow.heldMin = h ∧ s.requesting 0 = true ∧ s.requesting 128 = true ∧ s.unit4 ≠ 0
        ∧ s.minGrant 0 < s.want 0)
    ∧ (∀ r ∈ [([] : List Nat), [0, 128]], let s := pow (fun p => { p with closed := true, recv := r, grantNext := [(0, 9), (128, 9)] }) (up [])
       s.pow.closed = true ∧ s.capt = [] ∧ s.rd .kprCommitGo = 0 ∧ s.requesting 0 = true ∧ s.requesting 128 = true ∧ s.pow.recv = r)
    ∧ (∀ v ∈ [0, 2047], let s := { pow (fun p => { p with closed := true }) (up [(.kprCommitGo, 0, 0, 1)]) with capt := [(Fld.key .rsvPeakW 0 0, v)] }
       s.pow.closed = true ∧ s.rd .kprCommitGo = 1 ∧ s.capt = [(Fld.key .rsvPeakW 0 0, v)]) := by
  decide +kernel

/-! ### Power states -/

/-- All cores asleep but the first and the last. -/
def parked (l : List (Fld × Nat × Nat × Nat)) : State :=
  (List.range 128).foldl (fun s u => onCore u (fun c => { c with cstate := 3 }) s) (up l)
def asked (st : Nat) (l : List (Fld × Nat × Nat × Nat)) : State := env (fun e => { e with reqNew := true }) (parked ((.kprPstateReq, 0, 0, st) :: l))
/-- Core `u` in state `c`, asked for `r`. -/
def dozing (u c r : Nat) : State := onCore u (fun k => { k with cstate := c, cReq := some r }) State.reset

theorem wit_power_states :
    (let s := asked 2 []; s.regAsks 2 = true ∧ s.rd .kprPstateState ≠ 2 ∧ s.idleAll = true ∧ s.env.offIn = false ∧ s.nearStandby = true
      ∧ (hot s).regAsks 2 = true ∧ (hot s).idleAll = true ∧ (hot s).nearStandby = false)
    ∧ (let s := env (fun e => { e with offIn := true }) (asked 2 []); s.regAsks 2 = true ∧ s.rd .kprPstateState ≠ 2 ∧ s.env.offIn = true)
    ∧ (let s := onCore 127 (fun c => { c with cstate := 1 }) (asked 2 []); s.regAsks 2 = true ∧ s.rd .kprPstateState ≠ 2 ∧ s.idleAll = false)
    ∧ (let s := asked 2 [(.partState, 0, 15, 1)]; s.regAsks 2 = true ∧ s.rd .kprPstateState ≠ 2 ∧ s.idleAll = false)
    ∧ (let s := st [(.kprStep, 0, 0, 4)]; 4 ≤ s.rd .kprStep ∧ s.rd .kprReady = 0)
    ∧ (let s := up []; 4 ≤ s.rd .kprStep ∧ s.rd .kprReady = 1 ∧ s.rd .kprPstateState ≠ 2 ∧ s.idleAll = false)
    ∧ (let s := asked 0 [(.kprPstateState, 0, 0, 2)]; s.regAsks 0 = true ∧ s.rd .kprPstateState = 2 ∧ s.env.off = false)
    ∧ (let s := asked 0 []; s.regAsks 0 = true ∧ s.rd .kprPstateState ≠ 2)
    ∧ (∀ op ∈ [0x12, 0x10], (withPacket (aPacket [op, 0, 0, 0, 0x10, 0]) (up [(.kprPstateState, 0, 0, 2)])).wakeChip 7 op.toNat = true)
    ∧ (let s := pow (fun p => { p with pacePos := some 0 }) (env (fun e => { e with runWait := true, selfRefresh := true }) (up [(.kprPstateState, 0, 0, 2)]))
       s.env.runWait = true ∧ s.rd .kprPstateState = 2 ∧ s.env.off = false ∧ s.inSlotStart = true) := by
  decide +kernel

theorem wit_off :
    (let s := asked 3 [(.partState, 0, 15, 1), (.partState, 0, 0, 3)]; s.env.offIn = false ∧ s.env.off = false ∧ s.regAsks 3 = true)
    ∧ (∀ b : Bool, let s := pow (fun p => { p with ballast := if b then [(127, 1)] else [] }) (env (fun e => { e with offIn := true }) (up [(.partState, 0, 15, 3)]))
       s.env.offIn = true ∧ s.partsDown = true ∧ s.rd .kprPstateState ≠ 2 ∧ s.nearStandby = true ∧ (hot s).nearStandby = false
        ∧ (List.range 128).any (fun u => !(s.fenced u) && decide ((s.core u).cstate < 2) && decide (tabGet 0 u s.pow.ballast ≠ 0)) = b)
    ∧ (let s := hot (env (fun e => { e with offIn := true }) (up [(.kprPstateState, 0, 0, 2)])); s.env.offIn = true ∧ s.partsDown = true ∧ s.rd .kprPstateState = 2) := by
  decide +kernel

theorem wit_core_states :
    (∀ x ∈ [(0, 0), (1, 0), (3, 3), (2, 1)], (((dozing 127 x.1 x.2).core 127).cReq = some x.2 ∧ (dozing 127 x.1 x.2).fenced 127 = false ∧ x.2 ≤ ((dozing 127 x.1 x.2).core 127).cstate))
    ∧ (∀ u ∈ [0, 127, 128], ∀ x ∈ [(0, 1), (0, 2), (1, 2), (2, 3), (0, 3)], let s := dozing u x.1 x.2
       (s.core u).cReq = some x.2 ∧ s.fenced u = false ∧ (s.core u).cstate < x.2 ∧ x.2 ≤ 3 ∧ (s.core u).idle = true ∧ tabGet 0 u s.pow.ballast = 0 ∧ s.kb.ballast = 0
        ∧ (u < 128 → tabGet 0 u (pow (fun p => { p with ballast := [(0, 4), (127, 1)] }) s).pow.ballast ≠ 0))
    ∧ (∀ u ∈ [0, 127, 128], let s := onCore u (fun c => { c with cstate := 1 }) State.reset; (s.core u).cstate = 1 ∧ s.fenced u = false)
    ∧ (∀ op ∈ [MsgOp.credit, .flush, .rewrite, .item], ∀ u ∈ [0, 127],
       let m : Msg := { op := op, src := 5, sub := 1, dst := if op = .rewrite then 184 else u, dsub := 2, arg := 256 * u, data := List.replicate 8 1 }
       let s := sent m (onCore u (fun c => { c with cstate := 2 }) State.reset)
       s.arrival m.op 0 = some m ∧ m.coreOf = u ∧ s.islandOff u = true) := by
  decide +kernel

/-! ### Rings, completion entries and apertures -/

/-- Ring 3 of function `f` with 64 slots, its head at 63 and `avail` packets, in host memory or in device memory at 1 MiB. -/
def ring (f loc avail : Nat) : State :=
  up [(.cmdSqEn, f, 3, 1), (.cmdSqSizeLog2, f, 3, 6), (.cmdSqHead, f, 3, 63), (.cmdSqTail, f, 3, (63 + avail) % 64), (.cmdSqLoc, f, 3, loc), (.cmdSqBase, f, 3, 2 ^ 14)]
def inMem (a : Nat) (b : Bytes) (s : State) : State := { s with mem := s.mem.putBytes a b }
def nopBytes (len : Nat) (p : Nat) : Bytes := [0, 0, 0, 0, BitVec.ofNat 8 len, BitVec.ofNat 8 (len / 256), 0x77, 0, BitVec.ofNat 8 p, 0, 0, 0, 0, 0, 0, 0]
def aPart (s : State) (p : Nat) : State := put [(.partState, 0, p, 1), (.partXlateEn, 0, p, 1), (.partXlateBase, 0, p, 1), (.winV, 0, 8 * p, 1), (.winPages, 0, 8 * p, 511)] s

/-- A completion ring of 2 slots that holds two statuses, its tail at 65535. -/
def cring (f loc : Nat) (full : Bool) (n : Nat) : State :=
  (up [(.cmdCqEn, f, 3, 1), (.cmdCqSizeLog2, f, 3, 1), (.cmdCqTail, f, 3, 65535), (.cmdCqHead, f, 3, 65535), (.cmdCqLoc, f, 3, loc), (.cmdCqBase, f, 3, 2 ^ 14), (.cmdCqPhase, f, 3, 1),
    (.cmdCqCoalN, f, 3, 4)]).setCq f 3 { held := [{ fn := f, ring := 3, cq := 3, status := 0, fast := false, tag := 5, opcode := 0, part := 0, num := 0, r0 := 0, r1 := 0 }], count := n, full := full }

theorem wit_rings :
    (∀ f ∈ [0, 16], ∀ av ∈ [1, 63], let s := ring f 0 av
       s.reg .cmdSqEn f 3 = 1 ∧ (s.reg .cmdSqTail f 3 + 64 - s.reg .cmdSqHead f 3) % 2 ^ s.reg .cmdSqSizeLog2 f 3 = av ∧ s.cqFull f (s.reg .cmdSqCq f 3) = false
        ∧ s.reg .cmdSqSizeLog2 f 3 ≤ 16 ∧ s.reg .cmdSqLoc f 3 = 0)
    ∧ (∀ len ∈ [0, 17, 4112, 128], let n := ceilDiv (field (nopBytes len 0) 4 2) 64
       field (nopBytes len 0) 4 2 = len ∧ (len = 0 ∨ len % 16 ≠ 0 ∨ 4096 < len ∨ 1 < n))
    ∧ (∀ len ∈ [16, 64], let x := nopBytes len 16
       let p : Packet := { pid := 0, fn := 16, ring := 3, bytes := sliceBytes x 0 len, started := true }
       field x 4 2 = len ∧ ceilDiv len 64 ≤ 1 ∧ (ring 16 0 1).host.nextPid = 0 ∧ (ring 16 0 1).host.packets = [] ∧ p.fence = false ∧ p.check = 0)
    ∧ (let s := inMem (2 ^ 20 + 63 * 64) (nopBytes 128 0) (aPart (inMem 8192 [3] (ring 0 1 2)) 0)
       s.reg .cmdSqLoc 0 3 = 1 ∧ min 2 (max 1 (min 64 (ceilDiv (field (s.slotRead 0 3 63).1 4 2) 64))) = 2
        ∧ (∀ i, i < 2 → s.slotClear 0 3 (63 + i) = true)
        ∧ (∀ ecc ∈ [[], [(⟨(2 ^ 20 + 63 * 64) / 64, false⟩ : MemErr)]], (((List.range 2).foldl (fun (m : State) i => m.memErrs 0 (m.slotAddr 0 3 (63 + i)) 64 ecc) s).slotsRead 0 3 2).2 = 0)
        ∧ (let ecc := [(⟨(2 ^ 20 + 63 * 64) / 64, true⟩ : MemErr)]; (((List.range 2).foldl (fun (m : State) i => m.memErrs 0 (m.slotAddr 0 3 (63 + i)) 64 ecc) s).slotsRead 0 3 2).2 ≠ 0))
    ∧ (let s := ring 0 1 1; s.slotClear 0 3 63 = true ∧ (s.slotsRead 0 3 1).2 ≠ 0)
    ∧ (∀ f ∈ [0, 16], ∀ n ∈ [0, 3], ∀ loc, loc < 2 → let s := cring f loc false n
       (s.cq f 3).held.length = 1 ∧ s.reg .cmdCqEn f 3 = 1 ∧ (s.cq f 3).full = false ∧ s.reg .cmdCqLoc f 3 = loc
        ∧ s.canAccess Cls.mgmt f f (64 * s.reg .cmdCqBase f 3 + 32 * (s.reg .cmdCqTail f 3 % 2 ^ s.reg .cmdCqSizeLog2 f 3)) 32 = true)
    ∧ ((cring 16 0 false 1).cq 16 3).count ≠ 0 ∧ (cring 16 0 true 0).cqFull 16 3 = true := by
  decide +kernel

theorem wit_apertures :
    (∀ x ∈ [(0, 2 ^ 34 - 4096), (0, 0), (16, 2 ^ 36 - 4096)], let s := inMem 8192 [3] (aPart (up []) 0)
       s.apertureAddr x.1 x.2 4096 = some x.2 ∧ s.canAccess Cls.host 0 x.1 x.2 4096 = true)
    ∧ (∃ l ∈ linesOf (2 ^ 34 - 4096) 4096, (inMem 8192 [3] (aPart (up []) 0)).xlate 0 l.1 false = none)
    ∧ (∀ x ∈ [(0, 2 ^ 30 - 1, 1), (16, 64, 64), (0, 0, 64)], let s := inMem 8192 [3] (aPart (up []) 0)
       s.apertureAddr x.1 x.2.1 x.2.2 = some x.2.1 ∧ s.canAccess Cls.host 0 x.1 x.2.1 x.2.2 = true ∧ x.2.1 % 64 + x.2.2 ≤ 64 ∧ s.xlate x.1 x.2.1 true = some x.2.1
        ∧ inControl x.2.1 = false) := by
  decide +kernel

/-- A started packet of function 0 in partition 0, on a ring of its own. -/
def pkt0 (op : Nat) (payload : Bytes) : Packet :=
  { aPacket ([BitVec.ofNat 8 op, BitVec.ofNat 8 (op / 256), 0, 0, BitVec.ofNat 8 (16 + payload.length), BitVec.ofNat 8 ((16 + payload.length) / 256), 0, 0, 0, 0, 0, 0, 0, 0, 0, 0] ++ payload) with fn := 0 }

theorem wit_plain_packets :
    (withPacket (pkt0 0 []) (up [])).ready 7 0 = some (pkt0 0 [])
    ∧ (∀ sel, sel < 5 → let k := pkt0 2 (BitVec.ofNat 8 sel :: List.replicate 15 0); (withPacket k (up [])).ready 7 2 = some k ∧ k.get 0x10 1 = sel)
    ∧ (let k := pkt0 2 (4 :: List.replicate 15 0); ∀ x ∈ (withPacket k (up [])).errs, x.ord < tabGet 0 k.fn (withPacket k (up [])).host.queried ∨ (k.fn ≠ 16 ∧ x.part ≠ some k.fn)) := by
  decide +kernel

/-! ### Partitions and policy -/

/-- Byte values put at packet offsets 0x10 and up: (offset, bytes, value). -/
def payload (n : Nat) (l : List (Nat × Nat × Nat)) : Bytes := toBytes n (l.foldl (fun v f => v + f.2.2 * 2 ^ (8 * (f.1 - 16))) 0)
/-- A started packet of the PF for partition 15, and for the whole chip where `chip` says so. -/
def pktPf (op n : Nat) (chip : Bool) (l : List (Nat × Nat × Nat)) : Packet :=
  aPacket (toBytes 8 (op + (16 + n) * 2 ^ 32) ++ toBytes 8 (15 + (if chip then 16 else 0)) ++ payload n l)

/-- PART_CREATE of quad 31, sluices 16380 to 16383, and one 2 MiB window at `base`. -/
def createPkt (base lo : Nat) : Packet :=
  pktPf 0x10 64 false [(0x10, 4, 2 ^ 31), (0x14, 1, 255), (0x15, 1, 15), (0x16, 2, lo), (0x18, 4, 4), (0x1C, 2, 0xFFFF), (0x20, 4, 16), (0x24, 1, 8), (0x25, 1, 0), (0x28, 8, 0),
    (0x30, 2, lo), (0x32, 1, 1), (0x40, 8, base), (0x48, 8, 2 ^ 21)]
def mapPkt (code pa da : Nat) : Packet := pktPf 0x14 32 false [(0x10, 1, code), (0x11, 1, 1), (0x18, 8, pa), (0x20, 8, da), (0x28, 4, 1)]
/-- Partition 15 in a state, with quad 31, a translator table at 8 KiB whose first entry points to a level-2 table at 16 KiB, and window 0. -/
def part15 (state : Nat) : State :=
  inMem 8192 [1, 0x40] (put [(.partState, 0, 15, state), (.fnPartState, 15, 0, state), (.partQuads, 0, 15, 2 ^ 31), (.partXlateEn, 0, 15, 1), (.partXlateBase, 0, 15, 1), (.winV, 0, 120, 1),
    (.winBase, 0, 120, 1), (.winPages, 0, 120, 0)] (up []))

theorem wit_part_create :
    (let k := createPkt 0 16380; (withPacket k (up [(.kprPstateState, 0, 0, 2)])).wakeChip 7 0x10 = true)
    ∧ (∀ x ∈ [0, 4], ∀ base ∈ [0, 1], let k := createPkt base 16380
       let s := withPacket k (up [(.kprZero1Done, 0, 0, 1), (.partState, 0, 15, x)])
       s.wakeChip 7 0x10 = false ∧ s.ready 7 0x10 = some k ∧ k.fn < 17 ∧ k.ring < 4 ∧ k.part = 15 ∧ s.reg .partState 0 15 = x
        ∧ s.createRes 15 k = decide (base = 1) ∧ (s.env.keptMem && !s.env.fillStarted) = false ∧ s.winsFilled k = true ∧ s.tableOk 15 ctrlBase = true)
    ∧ ((env (fun e => { e with keptMem := true }) (withPacket (createPkt 0 16380) (up []))).env.keptMem && !(up []).env.fillStarted) = true := by
  decide +kernel

theorem wit_part_map :
    (∀ x ∈ [0, 1, 4], ∀ pa ∈ [0, 1], ∀ code, code < 2 → let k := mapPkt code pa (2 ^ 21)
       let s := withPacket k (part15 x)
       s.ready 7 0x14 = some k ∧ k.fn < 17 ∧ k.ring < 4 ∧ k.get 0x10 1 = code ∧ k.part = 15 ∧ s.reg .partState 0 15 = x ∧ k.get 0x18 8 = pa)
    ∧ (∀ code, code < 2 → ∀ pa ∈ [0, 2 ^ 30 - 2 ^ 21], let k := mapPkt code pa (2 ^ 21)
       let s := withPacket k (part15 1)
       s.ready 7 0x14 = some k ∧ k.get 0x10 1 = code ∧ s.reg .partState 0 k.part = 1 ∧ pa % 2 ^ 21 = 0 ∧ pa + 2 ^ 21 ≤ 2 ^ 40 ∧ k.get 0x28 4 = 1 ∧ (2 ^ 21) % 2 ^ 21 = 0
        ∧ s.inWindow 15 (2 ^ 21) = true ∧ s.moving 15 pa (if code = 0 then 2 ^ 21 else 2 ^ 50) = false ∧ (s.walk 15 pa).all (fun x => !(s.pageBusy x.1)) = true
        ∧ (let e := s.ent (s.l1Base 15 + 8 * bits pa 30 10); e.testBit 0 = true ∧ e.testBit 1 = false ∧ 4096 * bits e 12 28 = 16384)) := by
  decide +kernel

theorem wit_part_life :
    (∀ x, x < 5 → ∀ op ∈ [0x11, 0x12, 0x13], let k := pktPf op 16 false [(0x10, 1, 1)]
       let s := withPacket k (part15 x)
       s.ready 7 op = some k ∧ s.startedPkt 7 op = some k ∧ s.wakeChip 7 op = false ∧ k.fn < 17 ∧ k.ring < 4 ∧ k.part = 15 ∧ s.reg .partState 0 15 = x
        ∧ (s.part 15).grace = false ∧ s.partBusy 15 = false)
    ∧ (let s := (part15 1).setPart 15 { (part15 1).part 15 with grace := true }; (s.part 15).grace = true ∧ s.reg .partState 0 15 = 1)
    ∧ (∀ b, b < 2 → let s := pow (fun p => { p with ballast := [(127, b)] }) (part15 2)
       s.reg .partState 0 15 = 2 ∧ s.coresQuiet 15 = true ∧ 127 ∈ s.coresOf 15 ∧ s.fenced 127 = false ∧ tabGet 0 127 s.pow.ballast = b ∧ tabGet 0 124 s.pow.ballast = 0) ∧ (part15 4).reg .partState 0 15 = 4
    ∧ (withPacket (pktPf 0x12 16 false []) (up [(.kprPstateState, 0, 0, 2)])).wakeChip 7 0x12 = true := by
  decide +kernel

/-- POWER_POLICY with valid bits `v`, for cores 124 to 127, C-state `st`. -/
def powerPkt (v st : Nat) (chip : Bool) : Packet :=
  pktPf 0x20 32 chip [(0x10, 1, v), (0x12, 2, 2047), (0x14, 2, 2047), (0x16, 1, 255), (0x17, 1, 14), (0x18, 1, st), (0x20, 16, 15 * 2 ^ 124)]
def bwPkt (c mid : Nat) : Packet := pktPf 0x21 16 true [(0x10, 1, c), (0x11, 1, 1), (0x12, 1, 7), (0x14, 4, 2 ^ 20 - 1), (0x18, 1, mid), (0x19, 1, 8), (0x1A, 1, 12)]

theorem wit_policy_packets :
    (let k := pktPf 1 16 true []; (withPacket k (up [])).ready 7 1 = some k ∧ k.fn < 17 ∧ k.ring < 4)
    ∧ (∀ v ∈ [1, 2, 4, 8, 16, 31, 0], ∀ chip : Bool, ∀ st, st < 4 → let k := powerPkt v st chip
       let s := withPacket k (part15 1)
       s.ready 7 0x20 = some k ∧ k.chip = chip ∧ (∀ b, b < 5 → (k.get 0x10 1).testBit b = v.testBit b) ∧ k.get 0x18 1 = st ∧ (maskCores (k.get 0x20 16)) = [124, 125, 126, 127]
        ∧ s.coresOf 15 = [124, 125, 126, 127] ∧ s.fenced 127 = false ∧ (s.core 127).tasked = false)
    ∧ (let s := withPacket (powerPkt 16 0 false) (up [(.partQuads, 0, 15, 2 ^ 30)]); s.coresOf 15 = [120, 121, 122, 123])
    ∧ (∀ c, c < 8 → ∀ mid ∈ [7, 8], let k := bwPkt c mid; (withPacket k (up [])).ready 7 0x21 = some k ∧ k.get 0x10 1 = c ∧ (mid < k.get 0x19 1 ↔ mid = 7)
       ∧ k.get 0x18 1 = mid ∧ k.get 0x19 1 < k.get 0x1A 1) := by
  decide +kernel

/-! ### Launches and work packets -/

/-- Partition 0 on quad 0 with the last two sluices and its first gigabyte mapped to device address 0, after start-up. -/
def host0 (l : List (Fld × Nat × Nat × Nat)) : State :=
  put l (put [(.partXlateEn, 0, 0, 1), (.partXlateBase, 0, 0, 1), (.winV, 0, 0, 1), (.winPages, 0, 0, 511)] (part0 (inMem 8192 [3] (up []))))
def pkt0f (op n : Nat) (l : List (Nat × Nat × Nat)) : Packet := pkt0 op (payload n l)

/-- `s` with bytes of memory at rising places above all that it lists. -/
def withCells (l : List (Nat × Bytes)) (s : State) : State :=
  let new := l.flatMap (fun x => ((List.range x.2.length).zip x.2).filterMap (fun y => if y.2 = 0 then none else some (x.1 + y.1, y.2)))
  { s with mem := { s.mem with cells := s.mem.cells ++ new } }

/-- A LAUNCH of cores 1 and 3, their records at 64 KiB, with DONE sluice `done`. -/
def launchPkt (mask done : Nat) : Packet :=
  pkt0f 0x100 48 [(0x10, 16, mask), (0x20, 8, 0x10000), (0x28, 8, 0x3000), (0x32, 2, 0x8000 + done), (0x34, 4, 1000)]
/-- A record: program of one word at 128 KiB, s1 and s31, program counter 4095. -/
def recordBytes : Bytes :=
  toBytes 16 (0x20000 + 0 * 2 ^ 64 + 0xFF * 2 ^ 80 + (2 + 2 ^ 31) * 2 ^ 96) ++ toBytes 48 4095 ++ toBytes 16 (5 * 2 ^ 64) ++ List.replicate (29 * 8) 0 ++ toBytes 8 (2 ^ 64 - 1)
    ++ List.replicate 704 0
def launching : State := withPacket (launchPkt 10 16383) (withCells [(0x10000, recordBytes), (0x10400, recordBytes), (0x20000, [0x11])] (host0 []))

set_option maxRecDepth 100000 in
theorem wit_launch :
    (∀ x ∈ [(launchPkt 16 16383, host0 []), (launchPkt 10 16381, host0 []), (launchPkt 10 16383, host0 [(.partState, 0, 0, 2)]), (launchPkt 10 16383, onCore 3 (fun c => { c with tasked := true }) (host0 []))],
       (withPacket x.1 x.2).ready 7 0x100 = some x.1 ∧ (withPacket x.1 x.2).launchBad x.1 ≠ 0)
    ∧ (let k := launchPkt 10 16383; launching.ready 7 0x100 = some k ∧ launching.launchBad k = 0 ∧ k.recs.length = 2
        ∧ (∀ x ∈ k.recs, ∀ y ∈ launching.recordReads k.part x.2, launching.canAccess Cls.mgmt k.part k.part y.1 y.2 = true)) := by
  decide +kernel

set_option maxRecDepth 100000 in
theorem wit_launch_reads_clean :
    let k := launchPkt 10 16383
    let m := launching.recordErrs k.part (k.recs.foldl (fun l x => if l.contains x.2 then l else l ++ [x.2]) []) ([] : List MemErr)
    firstStatus (k.recs.map (fun x => m.recordBad k.part x.2)) = 0 := by
  decide +kernel

set_option maxRecDepth 100000 in
theorem wit_launch_reads_corrected :
    let k := launchPkt 10 16383
    let m := launching.recordErrs k.part (k.recs.foldl (fun l x => if l.contains x.2 then l else l ++ [x.2]) []) [⟨0x10000 / 64, false⟩]
    firstStatus (k.recs.map (fun x => m.recordBad k.part x.2)) = 0 := by
  decide +kernel

set_option maxRecDepth 100000 in
theorem wit_launch_reads_poisoned :
    let k := launchPkt 10 16383
    let m := launching.recordErrs k.part (k.recs.foldl (fun l x => if l.contains x.2 then l else l ++ [x.2]) []) [⟨0x20000 / 64, true⟩]
    firstStatus (k.recs.map (fun x => m.recordBad k.part x.2)) ≠ 0 := by
  decide +kernel

/-- A launch of cores 1 and 3 that has ended as `ended` says, or still runs. -/
def launched (forced : Nat) (ended : List (Nat × Nat × Nat)) : State :=
  let s := withPacket { launchPkt 10 16383 with wait := 7 } (onCore 3 (fun c => { c with tasked := true, launch := some 4 }) (host0 []))
  { s with host := { s.host with launches := [{ lid := 4, pid := 7, fn := 0, part := 0, cores := [1, 3], fallback := 0, done := 16383, doneEn := true, timeout := 1000, urgent := false, forced := forced, ended := ended, num := 1, maxCyc := 55 }] } }
def theLaunch (s : State) : Launch := nth s.host.launches 0 { lid := 0, pid := 0, fn := 0, part := 0, cores := [], fallback := 0, done := 0, doneEn := false, timeout := 0, urgent := false }

theorem wit_launch_ends :
    (∀ x ∈ [(0, [(1, 0, 0), (3, 0, 9)]), (0, [(3, 0xFF, 4095), (1, 1, 0)]), (0, [(1, 0, 0), (3, 0x40, 4095)]), (St.timeout, [(1, 0, 0), (3, 0, 9)])],
       let s := launched x.1 x.2
       s.host.launches.find? (fun l => decide (l.lid = 4)) = some (theLaunch s) ∧ (theLaunch s).over = true ∧ s.doneClear (theLaunch s).done = true
        ∧ (s.packet (theLaunch s).pid).isSome = true ∧ (theLaunch s).forced = x.1 ∧ (theLaunch s).ended = x.2 ∧ (s.slcDown 16383).isNone = true ∧ cMode (s.slcCtl 16383) ≠ 2 ∧ s.waiters = [])
    ∧ (let s := launched 0 [(1, 0, 0)]
       s.host.launches.find? (fun l => decide (l.lid = 4)) = some (theLaunch s) ∧ (theLaunch s).timeout ≠ 0 ∧ (theLaunch s).over = false ∧ (s.core 3).launch = some 4 ∧ (s.core 3).tasked = true)
    ∧ (let s := withPacket (pkt0f 0x103 16 []) (host0 [(.partState, 0, 0, 2)]); s.ready 7 0x103 = some (pkt0f 0x103 16 []) ∧ s.partGone 0 = true)
    ∧ (let k := { pkt0f 0x103 16 [] with pid := 8 }
       let s := launched 0 [(1, 0, 0)]
       let s := { s with host := { s.host with packets := s.host.packets ++ [k] } }
       s.ready 8 0x103 = some k ∧ s.partGone k.part = false ∧ (theLaunch s).fn = k.fn ∧ (theLaunch s).over = false ∧ (s.packet 7).any (fun x => decide (x.htag = k.get 0x10 2)) = true)
    ∧ (let s := withPacket (pkt0f 0x103 16 []) (host0 []); s.ready 7 0x103 = some (pkt0f 0x103 16 []) ∧ s.host.launches = []) := by
  decide +kernel

def sopPkt (op num chip : Nat) : Packet := pkt0f 0x101 16 [(0x10, 1, op), (0x11, 2, num), (0x13, 1, chip), (0x18, 8, 2 ^ 48 - 1)]
def kickPkt (e n : Nat) : Packet := pkt0f 0x102 (16 + 8 * (n + 1)) [(0x10, 1, e), (0x11, 1, n)]

theorem wit_sluice_queue_packets :
    (∀ x ∈ [(0, 16383), (1, 16382), (4, 16383), (0x80, 5), (0x81, 0), (0, 16381)], ∀ p ∈ [1, 2], let k := sopPkt x.1 x.2 9
       let s := withPacket k (host0 [(.partState, 0, 0, p)])
       s.ready 7 0x101 = some k ∧ s.partGone k.part = decide (p = 2) ∧ (k.get 0x10 1).testBit 7 = decide (0x80 ≤ x.1) ∧ bits (k.get 0x11 2) 0 14 = x.2
        ∧ s.inSluices k.part x.2 = decide (16382 ≤ x.2))
    ∧ (∀ e ∈ [15, 31], ∀ en, en < 2 → ∀ cr ∈ [1, 2], let k := kickPkt e 15
       let s := withPacket k (host0 [(.hqsEn, 0, 15, en), (.hqsCredits, 0, 15, cr)])
       s.startedPkt 7 0x102 = some k ∧ s.partGone k.part = false ∧ s.reg .hqsEn k.part (bits (k.get 0x10 1) 0 4) = en ∧ s.reg .hqsCredits k.part (bits (k.get 0x10 1) 0 4) = cr
        ∧ cellsOf (bits (k.get 0x11 1) 0 4 + 1) = 2 ∧ (k.get 0x10 1).testBit 4 = decide (e = 31) ∧ k.wait ≠ 4) := by
  decide +kernel

def copyPkt (src dst n fl done : Nat) : Packet := pkt0f 0x110 32 [(0x10, 8, src), (0x18, 8, dst), (0x20, 8, n), (0x28, 1, fl), (0x2A, 2, done)]
def movePkt (pa da : Nat) : Packet := pkt0f 0x111 32 [(0x10, 8, pa), (0x18, 8, da), (0x20, 1, 1)]

theorem wit_copy_packets :
    (∀ fl, fl < 4 → ∀ p ∈ [1, 2], ∀ done ∈ [0, 0x8000 + 16383, 0x8000 + 16381], let k := copyPkt 0x3001 0x3FFFFFC0 63 fl done
       let s := withPacket k (host0 [(.partState, 0, 0, p)])
       s.ready 7 0x110 = some k ∧ k.space < 16 ∧ s.partGone k.space = decide (p = 2) ∧ (k.get 0x2A 2).testBit 15 = decide (done ≠ 0)
        ∧ s.inSluices k.space (bits (k.get 0x2A 2) 0 14) = decide (bits done 0 14 = 16383) ∧ s.doneClear (bits (k.get 0x2A 2) 0 14) = true ∧ k.get 0x28 1 % 4 = fl
        ∧ s.canAccess Cls.mgmt 0 0 0x3001 63 = true ∧ s.canAccess Cls.mgmt 0 0 0x3FFFFFC0 63 = true ∧ 0x3001 % 64 + 63 ≤ 64 ∧ 0x3FFFFFC0 % 64 + 63 ≤ 64
        ∧ s.xlate 0 0x3001 false = some 0x3001 ∧ s.mem.anyPoison 0x3001 63 = false ∧ s.xlate 0 0x3FFFFFC0 true = some 0x3FFFFFC0 ∧ inControl 0x3FFFFFC0 = false)
    ∧ (withPacket (copyPkt 0 0 1 0 0) (host0 [])).ready 7 0x110 = some (copyPkt 0 0 1 0 0) := by
  decide +kernel

theorem wit_copy_reads :
    (∀ ecc ∈ [([] : List MemErr), [⟨0x3001 / 64, false⟩]], ((host0 []).memErrs 0 0x3001 63 ecc).mem.anyPoison 0x3001 63 = false)
    ∧ ((host0 []).copyAddr 0x3001 = 0x3001 ∧ (host0 []).noChip 0x3001 = false ∧ (host0 []).noChip (200 * 2 ^ 40) = true ∧ (host0 []).copyAddr (200 * 2 ^ 40) = 200 * 2 ^ 40) := by
  decide +kernel

/-- Partition 0 with the 2 MiB page 0 mapped to device page 1, and mover `m` free. -/
def movable (m : Nat) : State :=
  let s := { host0 [] with mem := { State.reset.mem with cells := [(8192, 1), (8193, 0x40), (16384, 1), (16386, 0x20), (0x200005, 9)] } }
  if m = 1 then { s with ms := { s.ms with mv0 := { phase := 1, src := 2 ^ 30 } } } else s

theorem wit_migrate_stopping :
    (let s := withPacket (movePkt 0 0) (host0 [(.partState, 0, 0, 2)]); s.ready 7 0x111 = some (movePkt 0 0) ∧ s.partGone 0 = true) := by
  decide +kernel

theorem wit_migrate_nowhere :
    (let s := withPacket (movePkt 0 0) (host0 [(.winV, 0, 0, 0)]); s.ready 7 0x111 = some (movePkt 0 0) ∧ s.partGone 0 = false ∧ s.anyFree 0 1 = false) := by
  decide +kernel

theorem wit_migrate_choice :
    (let s := withPacket (movePkt 0 0) (movable 0); s.freePage 0 1 (511 * 2 ^ 21) = true ∧ s.freePage 0 1 (2 ^ 21) = false ∧ s.anyFree 0 1 = true ∧ s.moveBad 0 0 (511 * 2 ^ 21) = false) := by
  decide +kernel

theorem wit_migrate_bad :
    (∀ x ∈ [(2 ^ 40, 2 ^ 21), (0, 2 ^ 40), (1, 2 ^ 21), (0, 2 ^ 21)], let s := withPacket (movePkt x.1 x.2) (movable 0)
       s.ready 7 0x111 = some (movePkt x.1 x.2) ∧ s.partGone 0 = false ∧ (2 ^ 40 ≤ x.1 ∨ 2 ^ 40 ≤ x.2 ∨ s.moveBad 0 x.1 x.2 = true)) := by
  decide +kernel

theorem wit_migrate_free :
    (∀ m, m < 2 → let s := withPacket (movePkt 0 (2 ^ 22)) (movable m)
       s.ready 7 0x111 = some (movePkt 0 (2 ^ 22)) ∧ s.moveBad 0 0 (2 ^ 22) = false ∧ (s.mover m).phase = 0 ∧ (m = 1 → (s.mover 0).phase ≠ 0) ∧ s.portOpen Cls.mover m = true) := by
  decide +kernel

theorem wit_migrate_switch :
    (let s := withPacket { movePkt 0 (2 ^ 22) with wait := 6 } { movable 0 with ms := { State.reset.ms with mv1 := { phase := 3, src := 2 ^ 21, dst := 2 ^ 22, pid := some 7 } } };
       (s.mover 1).phase = 3 ∧ (s.mover 0).phase = 0 ∧ s.pageBusy (s.mover 1).src = false ∧ (s.mover 1).pid = some 7 ∧ (s.packet 7).isSome = true) := by
  decide +kernel

theorem wit_migrate_busy :
    (let s := withPacket (movePkt 0 (2 ^ 22)) { movable 0 with ms := { State.reset.ms with mv0 := { phase := 1, src := 2 ^ 30 }, mv1 := { phase := 3, src := 2 ^ 31 } } };
       s.ready 7 0x111 = some (movePkt 0 (2 ^ 22)) ∧ s.moveBad 0 0 (2 ^ 22) = false ∧ (s.mover 0).phase ≠ 0 ∧ (s.mover 1).phase ≠ 0) := by
  decide +kernel

def loadPkt (src : Nat) : Packet := pkt0f 0x112 16 [(0x10, 1, 9), (0x11, 1, 254), (0x12, 1, 1), (0x18, 8, src)]

theorem wit_tow_load :
    (∀ x ∈ [(1, 0x5000), (2, 0x5000), (1, 2 ^ 30)], let k := loadPkt x.2
       let s := withPacket k (inMem 0x5000 [1, 2, 3, 4, 5, 6, 7, 8] (host0 [(.partState, 0, 0, x.1)]))
       s.ready 7 0x112 = some k ∧ s.partGone k.part = decide (x.1 = 2) ∧ k.get 0x12 1 + 1 = 2 ∧ k.get 0x18 8 = x.2 ∧ s.canAccess Cls.mgmt k.part k.part x.2 8 = true
        ∧ (((s.memErrs k.part x.2 8 []).readPa k.part x.2 8).2.2 = 0 ↔ x.2 = 0x5000) ∧ ((s.memErrs k.part x.2 8 [⟨0x140, true⟩]).readPa k.part x.2 8).2.2 ≠ 0) := by
  decide +kernel

/-! ### Links -/

def onLink (l : Nat) (f : Link → Link) (s : State) : State := s.setLink l (f (s.link l))
/-- Chip 0, locked in a tray of 2^5 chips, with links in a state. -/
def linked (ls : List Nat) (st : Nat) : State := put (ls.map (fun l => (.linkState, 0, l, st))) (up [(.klkLocked, 0, 0, 1), (.klkTrayLog2, 0, 0, 5)])
def aTrain (locked chip tray : Nat) (narrow : Bool) : TrainInfo := ⟨BitVec.ofNat 8 locked, narrow, BitVec.ofNat 8 chip, 0, tray, 0, false⟩
/-- A request of core 1 on chip `a` for chip `b`. -/
def farReq (a b n : Nat) : Msg := { op := .write, srcChip := a, src := 1, dstChip := b, dst := 188, part := 16, tag := 9, seq := 3, addr := 64, len := n, data := List.replicate n 7, lane := 0 }

theorem wit_link_training :
    (∀ x ∈ [0, 4], ∀ l ∈ [0, 13, 14, 23], let s := linked [l] x; (s.reg .linkState 0 l = 0 ∨ s.reg .linkState 0 l = 4) ∧ s.rd .klkLocked = 1 ∧ (s.link l).retryWait = false
      ∧ s.linkHeld l = false)
    ∧ (let s := put [(.linkHold, 0, 23, 1)] (linked [23] 0); s.linkHeld 23 = true ∧ (s.reg .linkState 0 23 = 0) ∧ s.rd .klkLocked = 1)
    ∧ (onLink 23 (fun k => { k with retryWait := true }) State.reset).linkHeld 23 = true ∧ ((onLink 23 (fun k => { k with retryWait := true }) State.reset).link 23).retryWait = true
    ∧ (∀ a ∈ [0, 1, 2], let s := onLink 23 (fun k => { k with training := true, attempts := a }) (linked [23] 1)
       (s.link 23).training = true ∧ (s.link 23).attempts = a ∧ s.linkPeer 23 = 128
        ∧ (∀ x ∈ [0x7F, 0xF7, 0xFF, 0x0F, 0xF0, 0x77], (bits (aTrain x 128 5 false).locked.toNat 0 4 = 15 ↔ x = 0x7F ∨ x = 0xFF ∨ x = 0x0F)
            ∧ (bits (aTrain x 128 5 false).locked.toNat 4 4 = 15 ↔ x = 0xF7 ∨ x = 0xFF ∨ x = 0xF0))
        ∧ (aTrain 0xFF 128 5 false).chip.toNat = s.linkPeer 23 ∧ (aTrain 0xFF 128 5 false).trayLog2 = s.rd .klkTrayLog2 ∧ s.reg .linkNarrow 0 23 = 0
        ∧ (aTrain 0xFF 127 5 false).chip.toNat ≠ s.linkPeer 23 ∧ (aTrain 0xFF 128 4 false).trayLog2 ≠ s.rd .klkTrayLog2) := by
  decide +kernel

theorem wit_link_loss :
    (∀ n ∈ [0, 7, 8], let s := onLink 23 (fun k => { k with replayOn := true, replays := n }) (linked [23] 2); s.linkUp 23 = true ∧ (s.link 23).replayOn = true ∧ (s.link 23).replays = n)
    ∧ ((linked [22, 23] 2).linkUp 23 = true ∧ (linked [22, 23] 2).linkUp (pairOf 23) = true)
    ∧ (let s := onLink 23 (fun k => { k with downWait := true, unacked := [(4095, [farReq 0 128 64]), (0, [farReq 0 128 8])] }) (linked [22] 2)
       s.linkUp 22 = true ∧ (23 = pairOf 22) ∧ s.reg .linkState 0 23 ≠ 2 ∧ seqAhead 0 4095 = 1 ∧ (farReq 0 128 8).answered = true)
    ∧ (let s := linked [22, 23] 2; s.linkUp 22 = true ∧ s.reg .linkState 0 23 = 2)
    ∧ (let s := onLink 23 (fun k => { k with downWait := true, unacked := [(4095, [farReq 0 128 64])] }) (linked [23] 0)
       (s.link 23).downWait = true ∧ s.linkUp 23 = false ∧ s.linkUp (pairOf 23) = false) := by
  decide +kernel

/-- A flit of type `ty` and SEQ `seq` with empty slots, and its CRC. -/
def aFlit (ty seq : Nat) : Bytes :=
  let h := toBytes 12 (ty + seq * 2 ^ 16)
  h ++ toBytes 4 (crc32 (h ++ List.replicate 240 0)) ++ List.replicate 240 0
def badFlit : Bytes := aFlit 1 4095 ++ [1]

set_option maxRecDepth 100000 in
theorem wit_flits :
    (let s := onLink 23 (fun k => { k with rxSeq := 4095 }) (linked [23] 2)
     s.linkUp 23 = true ∧ (s.link 23).rxSeq = 4095
      ∧ (∀ ty ∈ [1, 3], let f := sliceBytes (aFlit ty 4095) 0 256
         flitCrc f = field f 12 4 ∧ bits (field f 0 1) 0 4 = ty ∧ (s.link 23).headFaults f = [] ∧ bits (field f 2 2) 0 12 = 4095)
      ∧ (∀ x ∈ [(4, 4095), (15, 4095), (1, 512)], let f := sliceBytes (aFlit x.1 x.2) 0 256
         flitCrc f = field f 12 4 ∧ (s.link 23).headFaults f = if x.1 = 1 then [Vi.seqBad] else [Vi.typeBad]))
    ∧ (let f := sliceBytes (List.replicate 255 0 ++ [1]) 0 256; flitCrc f ≠ field f 12 4) := by
  decide +kernel

theorem wit_link_traffic :
    (let s := onLink 23 (fun k => { k with unacked := [(4095, [farReq 0 128 64])] }) (linked [23] 2); s.linkUp 23 = true ∧ seqAhead 4095 4095 < 512)
    ∧ (let s := onLink 23 (fun k => { k with waiting := [farReq 0 128 64] }) (linked [23] 2)
       s.linkUp 23 = true ∧ ∃ m ∈ (s.link 23).waiting, tabGet 0 (2 * m.op.vc + m.lane) (s.link 23).credits < m.slots)
    ∧ (∀ us ∈ [[22, 23], [23], ([] : List Nat)], let m := farReq 0 128 64
       let s := put [(.klkReach, 0, 2, if us.isEmpty then 0 else 1)] (sent m (linked us 2))
       s.net[0]? = some m ∧ m.dstChip ≠ s.chip ∧ s.ordWaits m = false ∧ s.switchNext 0 m = true ∧ s.usable (s.nextHop m.dstChip m.lane) = !us.isEmpty ∧ m.answered = true)
    ∧ (∀ c ∈ [0, 1], let m : Msg := { op := .keeper, srcChip := 1, src := 185, dst := 185, code := c, addr := 255, data := List.replicate 64 0 }
       let s := sent m (up [])
       s.arrival .keeper 0 = some m ∧ sumOf s.inbox (fun x => 16 * x.slots) + 16 * m.slots ≤ 65536)
    ∧ (let m : Msg := { op := .keeper, srcChip := 1, src := 185, dst := 185, code := 1, data := List.replicate 64 0 }
       let s := { sent m (up []) with inbox := List.replicate 820 m }
       s.arrival .keeper 0 = some m ∧ 65536 < sumOf s.inbox (fun x => 16 * x.slots) + 16 * m.slots) := by
  decide +kernel

/-- A request of partition 15 on a link whose request slots of lane 0 `n` messages of no partition hold, with RESV `r`. -/
def sharing (r n : Nat) : State :=
  onLink 22 (fun k => { k with credits := [(0, 8)], used := [(0, [(16, n)])] })
    (put [(.partState, 0, 15, 1), (.partLinkqReq, 0, 15, r)] (sent { farReq 0 128 64 with part := 15 } (linked [22] 2)))

theorem wit_link_reserves : ∀ x ∈ [(16, 999, true), (0, 0, true), (0, allot 0, false)], let m : Msg := { farReq 0 128 64 with part := 15 }
    let s := sharing x.1 x.2.1
    let used := tabGet [] 0 (s.link 22).used ++ [(s.linkOwner m, m.slots)]
    s.net[0]? = some m ∧ m.dstChip ≠ s.chip ∧ s.ordWaits m = false ∧ s.switchNext 0 m = true ∧ m.lane ≤ 1 ∧ (s.nextHop m.dstChip m.lane).2 = 22 ∧ s.usable (s.nextHop m.dstChip m.lane) = true ∧ s.linkUp 22 = true ∧ s.linkUp 23 = false ∧ 2 * m.op.vc + m.lane = 0
      ∧ (s.link 22).waiting = [] ∧ (s.link 22).unacked.length < 512 ∧ m.slots ≤ 15 ∧ m.slots ≤ tabGet 0 0 (s.link 22).credits ∧ s.linkOwner m = 15
      ∧ (((s.linkOwner m < 16 ∧ usedBy used (s.linkOwner m) ≤ s.linkReserve 0 (s.linkOwner m)) ∨ sharedUse (s.linkReserve 0) used ≤ s.linkPool 0) ↔ x.2.2 = true) := by
  decide +kernel

/-- A REWRITE of core 127's entry 15 of table `t`. -/
def aRewrite (t v : Nat) : Msg := { op := .rewrite, srcChip := 0, src := 185, dst := 184, arg := 127 * 2 ^ 8 + 15 * 2 ^ 15 + t * 2 ^ 19 + 7 * 2 ^ 21 + v * 2 ^ 24 }

theorem wit_rewrites :
    (∀ t, t < 3 → ∀ c, c < 3 → let m := aRewrite t (2 ^ 11 + 126 * 2 ^ 12)
       let s := sent m (onCore 127 (fun k => { k with cstate := c }) (up []))
       s.arrival .rewrite 0 = some m ∧ bits m.arg 19 2 = t ∧ bits m.arg 8 7 = 127 ∧ (s.core 127).cstate = c ∧ s.islandOff 127 = decide (c = 2))
    ∧ (∀ q ∈ [0, 1, 4096, 4097], bits (bits (aRewrite 1 (q * 2 ^ 21)).arg 24 40) 21 13 = q)
    ∧ (∀ p ∈ [0, 2], let s := put [(.partState, 0, 15, 1), (.partQuads, 0, 15, 2 ^ 31), (.qdFlight, 126, 0, p)] (up [])
       s.partOf 126 = s.partOf 127 ∧ (s.reg .qdFlight 126 0 = s.reg .qdFlight 127 15 ↔ p = 0))
    ∧ (let s := put [(.partState, 0, 15, 1), (.partQuads, 0, 15, 2 ^ 31)] (up []); s.partOf 123 ≠ s.partOf 127) := by
  decide +kernel

/-! ### Towpath jobs -/

/-- A job descriptor: mode, GOAL, LIMIT_NS, EXPMAX and STATE. -/
def jobDesc (mode goal limit expmax state : Nat) : Bytes :=
  toBytes 128 (mode + 0 * 2 ^ 8 + 2 * 2 ^ 16 + 1 * 2 ^ 32 + (0x8000 + 16383) * 2 ^ 48 + limit * 2 ^ 64 + goal * 2 ^ 128 + 2 * 2 ^ 160 + 2 * 2 ^ 192 + expmax * 2 ^ 224
    + 0x10000 * 2 ^ 256 + 0x11000 * 2 ^ 320 + 0x12000 * 2 ^ 384 + state * 2 ^ 448 + 0x15000 * 2 ^ 512 + 0x16000 * 2 ^ 704)
def aJob (d : Bytes) : TowJob := ⟨0, 7, d, 100, 3⟩
/-- Engine 3 with a graph of two nodes and two edges 0 → 1 of costs 5 and 6, and a program whose word 0 has operation `op`. -/
def engine (op : Nat) (f : Tow → Tow) : State :=
  let s := inMem 0x10004 [2, 0, 0, 0, 2] (inMem 0x11000 ([1, 0, 0, 0, 0, 0, 0, 0, 5, 0, 0, 0, 0, 0, 0, 0] ++ [1, 0, 0, 0, 0, 0, 0, 0, 6]) (host0 []))
  (s.setTow 3 (f (s.tow 3))).setTowWord 3 0 (op * 2 ^ 26)
def running (op : Nat) (r : TowRun) : State := engine op (fun k => { k with run := some r })
def aRun (d : Bytes) : TowRun := { job := aJob d, queue := [(0, 0, 0)], nextOrd := 1 }
def anEdge (idx : Nat) (done : Bool) : TowEdge := ⟨0, 0, idx, if done then 1 else 0, done, done, if done then 5 else 0, 0⟩

theorem wit_job_take :
    (∀ e ∈ [0, 3], ∀ held ∈ [0, 31, 32], let s := put [(.towRingEn, e, 0, 1), (.towRingBase, e, 0, 2 ^ 20), (.towRingDoorbell, e, 0, 16383), (.sluiceCount, 0, 16383, 2), (.towRingTaken, e, 0, 1)] (host0 [])
      let s := s.setTow e { s.tow e with jobs := List.replicate held (aJob []) }
      s.reg .towRingEn e 0 = 1 ∧ s.reg .partState 0 0 = 1 ∧ s.portOpen Cls.towbe e = true
        ∧ s.clearPa Cls.towbe e 0 (128 * (s.reg .towRingBase e 0 / 128) + 128 * (s.reg .towRingTaken e 0 % 2 ^ s.reg .towRingSizeLog2 e 0)) 128 = true
        ∧ s.reg .towRingTaken e 0 < s.slcCount (s.reg .towRingDoorbell e 0)
        ∧ ((s.tow e).jobs.length + b2n (s.tow e).run.isSome < 32 ↔ held < 32)) := by
  decide +kernel

theorem wit_job_start :
    (∀ d ∈ [[], jobDesc 8 1 1000 0 0x14000, jobDesc 0 1 1000 0 0x14000, jobDesc 4 0xFFFFFFFF 1000 0 0x14000, jobDesc 1 2 1000 0 0x14000, jobDesc 0 1 1000 0 (2 ^ 30)],
       let s := engine 0x19 (fun k => { k with jobs := [aJob d] })
       (s.tow 3).run = none ∧ pickJob (s.tow 3) = some (aJob d) ∧ s.portOpen (jCls d) 3 = true)
    ∧ (engine 0x19 id).jobBad 0 (jobDesc 8 1 1000 0 0x14000) = true
    ∧ (∀ d ∈ [jobDesc 0 1 1000 0 0x14000, jobDesc 4 0xFFFFFFFF 1000 0 0x14000, jobDesc 1 2 1000 0 0x14000, jobDesc 0 1 1000 0 (2 ^ 30)],
       d ≠ [] ∧ (engine 0x19 id).jobBad 0 d = false ∧ jLimit d ≤ 1100 - 100 ∧ 1099 - 100 < jLimit d)
    ∧ jSweep (jobDesc 1 2 1000 0 0x14000) = true ∧ jSweep (jobDesc 0 1 1000 0 0x14000) = false
    ∧ ((TowIo.mk (engine 0x19 id) 0 []).putNode 3 0 (jobDesc 0 1 1000 0 0x14000) 0 ⟨0, 0, 0, false⟩).bad = 0
    ∧ ((TowIo.mk (engine 0x19 id) 0 []).putNode 3 0 (jobDesc 0 1 1000 0 (2 ^ 30)) 0 ⟨0, 0, 0, false⟩).bad = St.towMem := by
  decide +kernel

/-- A run's node record of START, as JOB_START writes it. -/
def started (s : State) (d : Bytes) : State := ((TowIo.mk s 0 []).putNode 3 0 d 0 ⟨0, 0, 0, false⟩).s

theorem wit_batch_pop :
    (let d := jobDesc 0 1 1000 4 0x14000
     (∀ n ∈ [3, 4], let s := running 0x19 { aRun d with expanded := n }
        (s.tow 3).run = some { aRun d with expanded := n } ∧ s.portOpen (jCls d) 3 = true ∧ jSweep d = false ∧ jExpMax d ≠ 0 ∧ (jExpMax d ≤ n ↔ n = 4) ∧ d ≠ [] ∧ (aRun d).queue ≠ []
          ∧ 1100 - (aJob d).t0 ≤ jLimit d
          ∧ (aRun d).edges = []))
    ∧ (let s := running 0x19 { aRun (jobDesc 0 1 1000 0 0x14000) with queue := [] }; ((s.tow 3).run.map (fun r => r.queue)) = some [])
    ∧ (∀ goal ∈ [0, 1], let d := jobDesc 0 goal 1000 0 0x14000
       let s := started (running 0x19 (aRun d)) d
       let y := batchPops 3 0 d (jBatch d) ⟨s, 0, []⟩ (aRun d)
       (s.tow 3).run = some (aRun d) ∧ y.1.bad = 0 ∧ y.2.2 = decide (goal = 0))
    ∧ (let d := jobDesc 0 1 1000 0 (2 ^ 30)
       let y := batchPops 3 0 d (jBatch d) ⟨running 0x19 (aRun d), 0, []⟩ (aRun d)
       y.1.bad = St.towMem) := by
  decide +kernel

theorem wit_edge_check :
    (∀ op ∈ [0x19, 0x1A, 0x00, 0x16], ∀ x ∈ [(0, 1, 0x14000, 0), (1, 2, 0x14000, 0), (0, 1, 0x14000, 2 ^ 32 - 4), (0, 1, 2 ^ 30, 0)],
       let d := jobDesc x.1 x.2.1 1000 0 x.2.2.1
       let r : TowRun := { aRun d with edges := [anEdge 1 true, { anEdge 0 false with g := x.2.2.2 }] }
       let s := running op r
       let y := checkEdge 3 0 d ⟨s, 0, []⟩ 0 0
       (s.tow 3).run = some r ∧ s.portOpen (jCls d) 3 = true ∧ r.edges ≠ [] ∧ r.nextEdge = some (1, { anEdge 0 false with g := x.2.2.2 })
        ∧ (y.1.bad = if x.1 = 0 ∧ x.2.2.1 = 2 ^ 30 then St.towMem else 0)
        ∧ (y.1.bad = 0 → y.2.2 = (if op = 0x19 then some (.accept 5 0) else if op = 0x1A then some .reject else some (.stop St.towProg))))
    ∧ (let d := jobDesc 0 1 1000 0 0x14000
       let s := (running 0x19 (aRun d)).setTowWord 3 255 0x18000000
       (s.tow 3).run = some (aRun d) ∧ (checkEdge 3 0 d ⟨{ s with mem := s.mem.putBytes 0x15000 [255] }, 0, []⟩ 0 0).2.2 = some .progEnd)
    ∧ (let d := jobDesc 0 1 1000 0 0x14000
       (checkEdge 3 0 d ⟨inMem 0x1401C [1, 0, 1] (running 0x19 (aRun d)), 0, []⟩ 0 0).2.2 = none)
    ∧ (let d := jobDesc 0 1 1000 0 0x14000
       let r : TowRun := { aRun d with edges := [anEdge 0 true, anEdge 1 true] }
       (running 0x19 r).tow 3 = (running 0x19 r).tow 3 ∧ jSweep d = false ∧ r.edges ≠ [] ∧ r.edges.all (fun x => x.done) = true
        ∧ (r.edges.foldl (fun (acc : TowIo × TowRun) ed => relax 3 0 d acc.1 acc.2 ed) (⟨running 0x19 r, 0, []⟩, { r with edges := [] })).1.bad = 0) := by
  decide +kernel

/-- A SWEEP of `goal` candidates at candidate `cand`. -/
def sweeping (goal cand : Nat) (edges : List TowEdge) : State := running 0x1A { aRun (jobDesc 1 goal 1000 0 0x14000) with cand := cand, edges := edges }

theorem wit_sweep :
    (∀ x ∈ [(2, 0, 2), (2, 1, 0), (3, 1, 0)], let d := jobDesc 1 x.1 1000 0 0x14000
       let s := sweeping x.1 x.2.1 []
       let z := (TowIo.mk s 0 []).rows 3 0 d x.2.1
       (s.tow 3).run.isSome = true ∧ jSweep d = true ∧ s.portOpen (jCls d) 3 = true ∧ z.1.bad = 0 ∧ z.2.2 = x.2.2 ∧ jStart d + jGoal d = x.1)
    ∧ (let d := jobDesc 1 2 1000 0 0x14000
       let s := sweeping 2 0 []
       ((TowIo.mk s 0 [⟨0x400, true⟩]).rows 3 0 d 0).1.bad ≠ 0 ∧ ((TowIo.mk s 0 [⟨0x400, true⟩]).rows 3 0 d 0).1.bad ≠ 255)
    ∧ ({ aRun (jobDesc 1 2 1000 0 0x14000) with edges := [anEdge 0 true, anEdge 1 false] } : TowRun).nextEdge.map (fun x => x.1) = some 1
    ∧ ({ aRun (jobDesc 1 2 1000 0 0x14000) with edges := [anEdge 0 false, anEdge 1 false] } : TowRun).nextEdge.map (fun x => x.1) = some 0 := by
  decide +kernel

theorem wit_job_ends :
    (∀ mode ∈ [4, 6, 5], let d := jobDesc mode 1 1000 0 0x14000
       ((running 0x19 (aRun d)).tow 3).run = some (aRun d) ∧ jLimit d ≤ 1100 - (aJob d).t0 ∧ jDl d = true ∧ jBest d = decide (mode = 6) ∧ d ≠ [])
    ∧ (let d := jobDesc 6 1 1000 0 0x14000
       let s := engine 0x19 (fun k => { k with jobs := [aJob d] })
       (s.tow 3).run = none ∧ (s.tow 3).jobs.find? (fun j => decide (j.ord = 3)) = some (aJob d))
    ∧ (∀ b : Bool, ∀ recs ∈ [[], [(0x16000, [1, 2]), (0x16010, [3])]], let s := engine 0x19 (fun k => { k with done := [⟨0, Cls.towbe, 16383, b, recs⟩] })
       (s.tow 3).done = [⟨0, Cls.towbe, 16383, b, recs⟩] ∧ s.portOpen Cls.towbe 3 = true ∧ (∀ w ∈ recs, s.clearPa Cls.towbe 3 0 w.1 w.2.length = true)) := by
  decide +kernel

/-! ### Faults -/

/-- Core 3 runs in a launch of cores 1 and 3 whose fallback table at 0x3000 holds map `m`. -/
def falling (forced : Nat) (m : Bytes) (l : List (Fld × Nat × Nat × Nat)) : State :=
  let s := onCore 3 (fun c => { c with tasked := true, launch := some 4, cstate := 0 }) (inMem 0x3000 m (inMem 0x10400 recordBytes (host0 (l ++ [(.coreRun, 3, 0, 1)]))))
  { s with host := { s.host with launches := [{ lid := 4, pid := 7, fn := 0, part := 0, cores := [1, 3], fallback := 0x3000, done := 0, doneEn := false, timeout := 0, urgent := false, forced := forced,
                                                 recs := [(1, 0x10000), (3, 0x10400)] }] } }
/-- A map for core 3: KIND, TARGET, and one rewrite for chip `c`. -/
def aMap (kind target c : Nat) : Bytes := toBytes 8 (0x8300 + kind * 2 ^ 16 + target * 2 ^ 24 + 1 * 2 ^ 40) ++ toBytes 8 0 ++ toBytes 8 (c + 1 * 2 ^ 8 + 15 * 2 ^ 15 + 1 * 2 ^ 19 + 1 * 2 ^ 24)
def fencedAt (u : Nat) (s : State) : State := s.setFenced u true

theorem wit_fences :
    (∀ u ∈ [0, 127, 128], State.reset.fenced u = false ∧ State.reset.rd .kprReady = 0)
    ∧ ((falling 0 [] []).fenced 3 = false ∧ ((falling 0 [] []).launchOf 3).any (fun l => decide (l.fallback ≠ 0)) = true ∧ ((falling 0 [] []).core 3).tasked = true)
    ∧ ((launched 0 []).fenced 3 = false ∧ ((launched 0 []).launchOf 3).any (fun l => decide (l.fallback ≠ 0)) = false ∧ ((launched 0 []).core 3).tasked = true)
    ∧ (let s := onCore 128 (fun c => { c with cstate := 0 }) State.reset; (s.core 128).cstate = 0 ∧ s.reg .dbgHalted 128 0 = 0 ∧ s.fenced 128 = false)
    ∧ (∀ u ∈ [0, 127, 128], (onCore u (fun c => { c with corrected := 3 }) State.reset).errs.length < 1024 ∧ ((onCore u (fun c => { c with corrected := 3 }) State.reset).core u).corrected ≠ 0)
    ∧ tabGet 0 (256 * 3 + 23) ({ State.reset with corr := [(791, 2)] } : State).corr ≠ 0 := by
  decide +kernel

set_option maxRecDepth 100000 in
theorem wit_fence_due :
    (∀ c ∈ [2, 3], ∃ n ∈ [0, 1, 2, 3, 4, 5, 6, 7, 8, 9, 10, 11, 12, 13, 14, 15, 16],
      (onCore 127 (fun k => { k with ueTimes := List.replicate n 5, ceTimes := List.replicate (64 * n) 5 }) State.reset).fenceDue 127 c = true) := by
  decide +kernel

set_option maxRecDepth 100000 in
theorem wit_fallback :
    (∀ x ∈ [(aMap 0 0x200 5), (aMap 1 0x205 0), aMap 0 0x100 0, []], ∀ f ∈ [0, St.timeout],
      let s := fencedAt 3 (onCore 1 (fun c => { c with tasked := true }) (falling f x []))
      (s.launchOf 3).any (fun l => decide (l.fallback ≠ 0 ∧ l.forced = f ∧ l.cores = [1, 3])) = true ∧ s.fenced 3 = true ∧ s.fenced 1 = false ∧ (s.core 3).tasked = true
        ∧ s.canAccess Cls.mgmt 16 0 0x3000 1024 = true)
    ∧ (∀ x ∈ [(aMap 0 0x200 5), (aMap 1 0x205 0), aMap 0 0x100 0, []],
      let s := fencedAt 3 (onCore 1 (fun c => { c with tasked := true }) (falling 0 x []))
      let x2 := (s.memErrs 0 0x3000 1024 []).countLines Cls.mgmt 16 (lineCount 0x3000 1024)
      ((s.launchOf 3).bind (fun l => x2.findMap l 3)).map (fun y => (y.1, x2.mapLost 3 y.2 true, x2.mapLost 3 y.2 false))
        = if x = [] then none else some (0, decide (x = aMap 0 0x100 0), true)) := by
  decide +kernel

set_option maxRecDepth 100000 in
theorem wit_fallback_reads :
    (let s := fencedAt 3 (falling 0 (aMap 0 0x200 5) [])
     let x := (s.memErrs 0 0x3000 1024 [⟨0x3000 / 64, false⟩]).countLines Cls.mgmt 16 (lineCount 0x3000 1024)
     ((s.launchOf 3).bind (fun l => x.findMap l 3)).isSome = true)
    ∧ (let s := fencedAt 3 (falling 0 (aMap 0 0x200 5) [])
     let x := (s.memErrs 0 0x3000 1024 [⟨0x3000 / 64, true⟩]).countLines Cls.mgmt 16 (lineCount 0x3000 1024)
     ((s.launchOf 3).bind (fun l => x.findMap l 3)).isSome = false)
    ∧ (let s := onCore 3 (fun c => { c with barge := some ⟨5, 7, [1], false⟩ }) (fencedAt 3 (falling 0 (aMap 1 0x205 0) []))
       (s.core 3).barge = some ⟨5, 7, [1], false⟩ ∧ field (aMap 1 0x205 0) 3 1 ≠ s.chip) := by
  decide +kernel

theorem wit_chip_faults :
    (∀ b : Bool, (env (fun e => { e with chipOut := b }) (launched 0 [])).env.chipOut = b) ∧ (launched 0 []).reg .partState 0 0 = 1 ∧ (linked [0] 2).chips = 256
    ∧ (let s := linked [0, 1, 2] 2; 255 < s.chips ∧ s.linkPeer 2 = 2 ∧ s.linkUp 2 = true ∧ s.linkPeer 4 = 3 ∧ s.linkUp 4 = false ∧ s.linkUp 5 = false ∧ s.linkPeer (2 * 11) = 128
        ∧ s.linkUp 22 = false) := by
  decide +kernel

/-- Core 3 in debug mode at its trigger. -/
def triggered (kind action value : Nat) : State := put [(.dbgEn, 3, 0, 1), (.dbgTrigKind, 3, 0, kind), (.dbgTrigAction, 3, 0, action), (.dbgTrigValue, 3, 0, value), (.corePc, 3, 0, 4095)] (launched 0 [])
/-- A capture of array 3's entries to `a` is under way. -/
def capturing (a : Nat) : State := onCore 3 (fun c => { c with capture := some 1 }) (put [(.dbgCapAddr, 3, 0, a), (.dbgTrigCmask, 3, 0, 8)] (launched 0 []))

theorem wit_capture :
    (∀ x ∈ [(1, 4095), (2, 0)], ∀ action, action < 2 → let s := triggered x.1 action x.2
       s.reg .dbgEn 3 0 = 1 ∧ s.fenced 3 = false ∧ (s.core 3).tasked = true ∧ (s.core 3).fired = false ∧ (s.core 3).capture = none ∧ s.reg .dbgHalted 3 0 = 0 ∧ s.trigHit 3 = true
        ∧ s.reg .dbgTrigAction 3 0 = action)
    ∧ (let s := capturing (2 ^ 30 - 2 ^ 16 + 64); (∀ x ∈ (s.core 3).waits, x.state ≠ 2) ∧ (s.core 3).qFront = [])
    ∧ ((capturing (2 ^ 30 - 2 ^ 16 + 64)).core 3).capture.isSome = true
    ∧ (∃ x ∈ linesOf (2 ^ 30 - 2 ^ 16 + 64) (65536 * countOnes 4 8), (capturing 0).xlate ((capturing 0).corePart 3) x.1 true = none) := by
  decide +kernel

set_option maxRecDepth 100000 in
theorem wit_capture_clear :
    (let s := capturing (2 ^ 30 - 2 ^ 16); (∀ x ∈ linesOf (2 ^ 30 - 2 ^ 16) (65536 * countOnes 4 (s.reg .dbgTrigCmask 3 0)), s.xlate (s.corePart 3) x.1 true ≠ none)
      ∧ s.canAccess Cls.mgmt 16 (s.corePart 3) (2 ^ 30 - 2 ^ 16) 65536 = true) := by
  decide +kernel

/-! ### Management, test access and the YZ2-KB block -/

theorem wit_management :
    (let s := st [(.kprStep, 0, 0, 4)]; 4 ≤ s.rd .kprStep ∧ s.rd .kprReady = 0)
    ∧ (let s := up [(.kprPstateState, 0, 0, 2)]; 4 ≤ s.rd .kprStep ∧ s.rd .kprReady = 1 ∧ s.rd .kprPstateState = 2 ∧ s.env.off = false)
    ∧ (let s := parked []; s.rd .kprPstateState ≠ 2 ∧ s.idleAll = true ∧ s.env.offIn = false ∧ s.env.off = false ∧ s.nearStandby = true
        ∧ (hot s).idleAll = true ∧ (hot s).nearStandby = false)
    ∧ (up []).idleAll = false ∧ (env (fun e => { e with offIn := true }) (up [])).env.offIn = true
    ∧ (∀ code ∈ [0, 6, 0xF, 0x11, 0xFF], (BitVec.ofNat 8 code).toNat ∉ ([1, 2, 3, 4, 5, 0x10] : List Nat)) := by
  decide +kernel

/-- The block, awake, with chip and island numbers. -/
def kbAwake (l : List (Fld × Nat × Nat × Nat)) : State := onCore 128 (fun c => { c with cstate := 0 }) (st (l ++ [(.kbIsland, 128, 0, 255)]))
def hdrOf (wr dbl : Bool) (off : Nat) : BitVec 64 := BitVec.ofNat 64 (b2n wr + 2 * b2n dbl + off)
def kbLoc (off : Nat) : Loc := ((kbAwake []).place .trq off).getD ⟨.kpr, 0, 0, 0⟩

theorem wit_kb_commands :
    State.reset.kbUp = true
    ∧ (∀ b : Bool, let s := (kbAwake []).setFenced 128 b; s.kbUp = true ∧ s.fenced 128 = b)
    ∧ (∀ b : Bool, let s := onCore 128 (fun c => { c with tasked := b }) (kbAwake []); s.fenced 128 = false ∧ (s.core 128).tasked = b ∧ (s.core 128).launch = none ∧ s.islandOff 128 = false)
    ∧ (∀ v ∈ [0, 1, 2, 3, 4095], ((BitVec.ofNat 12 v).toNat % 4 = 0 ↔ v = 0))
    ∧ (∀ w ∈ [0, 0xFFF0, 10, 0xFFFF], (BitVec.ofNat 16 w).toNat % 16 = 0 ∨ 9 < (BitVec.ofNat 16 w).toNat % 16)
    ∧ ({ State.reset with kb := { rstLow := true } } : State).kb.rstLow = true
    ∧ (let s : State := { State.reset with kb := { granted := true } }; s.kb.granted = true ∧ s.kbUp = true)
    ∧ ((kbAwake []).core 128).tasked = false := by
  decide +kernel

theorem wit_kb_registers :
    (∀ dbl : Bool, let s := kbAwake []
       let hdr := hdrOf false dbl 0x1FFFF8
       s.kbUp = true ∧ 4 * bits hdr.toNat 2 21 = 0x1FFFF8 ∧ hdr.toNat.testBit 1 = dbl ∧ hdr.toNat.testBit 0 = false ∧ s.place .trq 0x1FFFF8 = none ∧ sizeOk 0x1FFFF8 8 = true)
    ∧ (∀ x ∈ [(0x100200, true), (0x142000, false), (0x120018, true)], let s := kbAwake []
       let l := kbLoc x.1
       let size := if x.2 then 8 else 4
       reachesAt s .trq x.1 size l = true ∧ l.win = none ∧ l.assigned size = true ∧ (l.under size).length = 1
        ∧ (l.under size).all (fun y => decide (y.2 < 32768) && decide (y.1.spec.acc ≠ .wo)) = true ∧ 4 * bits (hdrOf true x.2 x.1).toNat 2 21 = x.1 ∧ (hdrOf true x.2 x.1).toNat.testBit 0 = true
        ∧ (hdrOf true x.2 x.1).toNat.testBit 1 = x.2)
    ∧ ((kbLoc 0x142000).under 4).all (fun y => decide (y.1 ∈ plainRw ∧ (kbLoc 0x142000).blk = y.1.spec.blk)) = true
    ∧ (∀ r, r < 2 → let s := kbAwake [(.coreRun, 128, 0, r)]
       let hdr := hdrOf true true 0x100800
       4 * bits hdr.toNat 2 21 = 0x100800 ∧ hdr.toNat.testBit 0 = true ∧ hdr.toNat.testBit 1 = true ∧ s.islandOff 128 = false ∧ (s.core 128).cstate = 0 ∧ s.reg .coreRun 128 0 = r)
    ∧ (∀ n ∈ [16384, 0], bits (BitVec.ofNat 64 (n * 2 ^ 34 + 255 * 2 ^ 49 + 127 * 2 ^ 8 + 255)).toNat 34 15 ≤ 16384) := by
  decide +kernel

/-! ### Pairs and the scrubber -/

/-- Core 128 with pair 7 asked for state `x`. -/
def pairing (x : Nat) (f : Core → Core) : State := onCore 128 (fun c => f { c with cstate := 0, pairNext := [(7, x)], spd := [(98304 * 7, 5)], scrubWb := some (192 * 7) }) State.reset

theorem wit_pairs :
    (∀ u ∈ [0, 127, 128], ∀ x ∈ [0, 1, 3], let s := onCore u (fun c => { c with pairNext := [(7, x)] }) State.reset
       (s.core u).pairNext.find? (fun x => decide (x.1 = 7)) = some (7, x) ∧ (s.core u).pairRun.any (fun y => decide (y.1 = 7)) = false ∧ sbCovers (s.core u) 7 = false)
    ∧ (∀ x ∈ [0, 1, 3], ∀ again ∈ [[], [(7, 3)], [(6, 3)]], let s := onCore 128 (fun c => { c with pairRun := [(7, x)], pairNext := again }) State.reset
       (s.core 128).pairRun.find? (fun x => decide (x.1 = 7)) = some (7, x) ∧ x < 4 ∧ (s.core 128).pairNext = again)
    ∧ (∀ r ∈ [0, 1535], let s := onCore 128 (fun c => { c with scrubRow := r }) (st [(.spdScrubInterval, 128, 0, 1)])
       s.reg .spdScrubInterval 128 0 ≠ 0 ∧ s.islandOff 128 = false ∧ s.nextOnRow 128 1536 (s.core 128).scrubRow = some r) := by
  decide +kernel

/-! ### Steps and invariants -/

theorem wit_step : ({ State.reset with pending := [.resetNAssert] } : State).pending = .resetNAssert :: [] ∧ State.reset.pending = [] := by decide +kernel

/-- A state that keeps the interrupts' record: source 9 stands, is enabled and has been sent; and its step by a command. -/
theorem wit_interrupts :
    (let s := { env (fun e => { e with intSticky := 0x200, intLast := 0x200 }) (st [(.kprIntEn, 0, 0, 0x1FFF)]) with pending := [.resetNAssert] }
     (∀ i, i < 13 → (s.summary.testBit i = true → (s.rd .kprIntEn).testBit i = true → s.env.intLast.testBit i = true) ∧ (s.env.intLast.testBit i = true → s.summary.testBit i = true))
      ∧ (match step s with | .next _ => true | _ => false) = true) := by
  decide +kernel

/-! ### The spec's worked cases -/

/-- A core 0 whose scratchpad is on and holds the bytes given at each base. -/
def spdWith (l : List (Nat × List Nat)) : State :=
  l.foldl (fun s x => s.spdWrite 0 x.1 (x.2.map (fun b => BitVec.ofNat 8 b)) false)
    State.reset

/-- The descriptor fields of worked case 04-1: 4 lines of 8 E4M3 elements, values at 0x1000, metadata at 0x2000, pointers at 0x3000. -/
def tile41 (layout : Nat) : Desc :=
  parseDesc (layout + 3 * 2 ^ 8 + 4 * 2 ^ 64 + 8 * 2 ^ 96 + 0x1000 * 2 ^ 128 + 0x2000 * 2 ^ 160 + 0x3000 * 2 ^ 192 + 0x1000 * 2 ^ 288)
def ptrs41 : List Nat := [0, 0, 0, 0, 2, 0, 0, 0, 2, 0, 0, 0, 5, 0, 0, 0, 7, 0, 0, 0]
def vals41 : List Nat := [0x38, 0x40, 0x30, 0xB8, 0x44, 0x40, 0x38]
/-- The stream that step 5 gives: positions and encodings of each line. -/
def stream41 : List (Nat × List (Nat × Nat)) := [(0, [(0, 0x38), (3, 0x40)]), (1, []), (2, [(0, 0x30), (5, 0xB8), (7, 0x44)]), (3, [(1, 0x40), (6, 0x38)])]
def streamOf (s : State) (d : Desc) : Option (List (Nat × List (Nat × Nat))) :=
  match s.decodeLines 0 d 0 8 [0, 1, 2, 3] with
  | .ok l => some (l.map (fun x => (x.1, x.2.map (fun e => (e.pos, e.enc)))))
  | .error _ => none

/-- Worked case 00-1. -/
theorem test_case_00_1 : sysAdd 0x2A4000000000 4096 = 0x2A4000001000 ∧ ctlOf (0x2A4000001000 % 2 ^ 40) = 9 := by decide +kernel

/-- Worked case 01-1: the hops of the default lane, chip by chip. -/
theorem test_case_01_1 :
    [42, 45, 37, 53, 21, 85].map (fun c => (st [(.klkChipNum, 0, 0, c)]).nextHop 213 0)
      = [(45, 12), (37, 14), (53, 16), (21, 18), (85, 20), (213, 22)] := by
  decide +kernel

/-- Worked case 13-1: the hops of lane 1 from chip 37. -/
theorem test_case_13_1 :
    [37, 165, 229, 197].map (fun c => (st [(.klkChipNum, 0, 0, c)]).nextHop 213 1) = [(165, 22), (229, 20), (197, 18), (213, 16)]
    ∧ (st [(.klkChipNum, 0, 0, 37), (.klkReach, 0, 0, 0xFF00FFFFFFFFFFFF)]).reach 53 = false := by
  decide +kernel

/-- Worked case 12-1: the children and the parents. -/
theorem test_case_12_1 :
    (treeChildren 253 5).length = 0 ∧ (treeChildren 248 5).length = 7 ∧ (treeChildren 0 5).length = 12
    ∧ [253, 248, 120, 56, 24, 8, 0].map (fun c => (st [(.klkChipNum, 0, 0, c)]).treeParent 5)
        = [some (248, 8), some (120, 22), some (56, 20), some (24, 18), some (8, 16), some (0, 14), none] := by
  decide +kernel

/-- Worked case 02-1. -/
theorem test_case_02_1 :
    ({ st [(.klkChipNum, 0, 0, 42), (.weirStride, 0, 0, 1), (.weirOffset, 0, 0, 64)] with
        pow := { State.reset.pow with slotCount := 256, slotBase := 17 } } : State).slot = 123 := by
  decide +kernel

/-- Worked case 03-2: the block code, the huge element and one of the others. -/
theorem test_case_03_2 :
    let l := dec32 0x447A0000 :: List.replicate 31 (dec32 0x3E99999A)
    blockCode 6 l = 0x87 ∧ (scaledEnc 6 true 0x87 (dec32 0x447A0000)).1 = 6 ∧ (scaledEnc 6 true 0x87 (dec32 0x3E99999A)).1 = 0
    ∧ (scaledEnc 6 true 0x87 (dec32 0x3E99999A)).2.1 = Nf.unf := by
  decide +kernel

/-- Worked case 03-3. -/
theorem test_case_03_3 :
    let x := fpVal (fpFmt 1) 0x4049
    blockCode 3 [x] = 0x78 ∧ (pieceEnc true 0x78 1 false x).1 = 0x7D ∧ (pieceEnc true 0x78 2 false x).1 = 0xF6 ∧ pieceCode 0x78 2 false = 0x74 := by
  decide +kernel

/-- Worked case 04-1: the three layouts decode to one stream. -/
theorem test_case_04_1 :
    streamOf (spdWith [(0x1000, vals41), (0x2000, [9, 0, 0, 0, 0, 0, 0, 0, 0xA1, 0, 0, 0, 0x42, 0, 0, 0]), (0x3000, ptrs41)]) (tile41 1) = some stream41
    ∧ streamOf (spdWith [(0x1000, vals41), (0x2000, [0, 0, 3, 0, 0, 0, 5, 0, 7, 0, 1, 0, 6, 0]), (0x3000, ptrs41)]) (tile41 2) = some stream41
    ∧ streamOf (spdWith [(0x1000, [0x38, 0x40, 0, 0, 0, 0, 0, 0, 0x30, 0, 0xB8, 0x44, 0, 0x40, 0, 0x38]),
        (0x2000, [0x4C, 0, 0, 0, 0x44, 0, 0, 0, 0xD4, 0, 0, 0, 0x84, 0, 0, 0])]) (tile41 3) = some stream41 := by
  decide +kernel

/-- Worked case 08-1: the fields of TC0 and of the MMA word. -/
theorem test_case_08_1 :
    let t := 0x100024CC
    let w := 0x1000000001000051 + 0x3E1000 * 2 ^ 64
    tShape t = 0 ∧ tFmt t = 3 ∧ tOfmt t = 3 ∧ tSat t = true ∧ tRnd t = false ∧ tGsel t = 1 ∧ tErrstop t = true ∧ tPeop t = 0 ∧ tTreeop t = 0
    ∧ fOpc w = 0x51 ∧ mmaRows w = 256 ∧ mmaMask w = 15 ∧ w.testBit 85 = true := by
  decide +kernel

/-- Worked case 10-1. -/
theorem test_case_10_1 : ctlOf 0x601800 = 0 ∧ locOf 0x601800 = 0xC0000 ∧ ctlOf 0x400000D123 = 9 ∧ locOf 0x400000D123 = 0x1123 := by decide +kernel

/-- Worked case 10-2: the ledger in both orders. -/
theorem test_case_10_2 :
    ∀ l ∈ [[0x4B800000, 0x3F800000, 0xCB800000], [0x4B800000, 0xCB800000, 0x3F800000]],
      let c := l.foldl (fun c x => ledgerAddCell c 0 x) 0
      (unpackCell c).value = 2 ^ 149 ∧ ((unpackCell c).settle false).1 = 0x3F800000 := by
  decide +kernel

/-- Worked case 19-1. -/
theorem test_case_19_1 :
    (locate .pf 0x08000020).map (fun l => (l.blk, l.inst, l.off)) = some (.core, 42, 0x20)
    ∧ (locate .pf 0x07FD0538).map (fun l => (l.blk, l.inst, l.off)) = some (.acc, 42, 0xD0538)
    ∧ (locate .pf 0x00210008).map (fun l => (l.blk, l.inst, l.off)) = some (.mc, 16, 8) := by
  decide +kernel

/-- A Square FP8 tile of 32 lanes whose elements are all zero, and an MMA with GSEL 1. -/
def tile42 : Tile :=
  { fmt := 3, shape := 0, dense := true, linek := true, bscale := false, k0 := 0, knext := 32, lanes := (List.range 32).map some, els := [], sup := [], poison := [], scale := [] }
def mma42 : Disp := ⟨0, .mma, 0, 0, 0, 0, 0, 0, 0x2000, 0, 0, [], none⟩
def rows42 : List (List DElt) := [[2, 5], [9, 30], [17, 18, 20], [1, 26]].map (fun l => l.map (fun p => (⟨p, 0x38, 127, false⟩ : DElt)))

/-- Worked case 04-2: the matched lanes, segments and filled lanes of its four rows. -/
theorem test_case_04_2 : rows42.map (fun l => seamCounts mma42 tile42 l) = [(2, 1, 6), (2, 2, 14), (3, 1, 5), (2, 2, 14)] := by
  decide +kernel

/-- Worked case 05-2: the elements that come from the feature map, and the rows they lie in. -/
theorem test_case_05_2 :
    let p : ConvP := { fm := 0, c := 8, ih := 16, iw := 16, oh := 16, ow := 16, kh := 3, kw := 3, sy := 1, sx := 1, dy := 1, dx := 1, pt := 1, pl := 1 }
    ((List.range 32).flatMap (fun k => (List.range 32).filterMap (fun n => p.elt k n))).length = 608 ∧ convRows p 3 0 32 0 32 = [(0, 0)] := by
  decide +kernel

/-- Worked case 10-2: FP32 ADD in the two orders. -/
theorem test_case_10_2_fp :
    let add (m x : Nat) : Nat := (atomElt (1 + 2 * 16) m x).1
    add (add (add 0 0x4B800000) 0x3F800000) 0xCB800000 = 0 ∧ add (add (add 0 0x4B800000) 0xCB800000) 0x3F800000 = 0x3F800000 := by
  decide +kernel

/-- Worked case 11-1, step 6: of CORE, HOST, LINKRX and MOVER the controller serves LINKRX, then MOVER, then HOST. -/
theorem test_case_11_1 :
    let s := st [(.classPrio, 0, 0, 6), (.classPrio, 0, 1, 6), (.classPrio, 0, 5, 1), (.classPrio, 0, 4, 4)]
    let core : CtlReq := ⟨{ op := .read, addr := 0, cls := 4, demoted := true }, 9000, 0⟩
    let host : CtlReq := ⟨{ op := .read, addr := 64, cls := 0, urg := 1 }, 9500, 1⟩
    let link : CtlReq := ⟨{ op := .read, addr := 128, cls := 1, urg := 3 }, 9900, 2⟩
    let mover : CtlReq := ⟨{ op := .read, addr := 192, cls := 5 }, 5800, 3⟩
    s.pickReq 10000 [] [core, host, link, mover] = some link ∧ s.pickReq 10000 [] [core, host, mover] = some mover
      ∧ s.pickReq 10000 [] [core, host] = some host := by
  decide +kernel

/-- Worked case 15-1. -/
theorem test_case_15_1 :
    let s := put [(.partXlateEn, 0, 3, 1), (.partXlateBase, 0, 3, 0x3FC0100000 / 8192), (.winV, 0, 24, 1), (.winBase, 0, 24, 0x0800000000 / 2 ^ 21), (.winPages, 0, 24, 2047),
      (.winV, 0, 25, 1), (.winBase, 0, 25, 0x8010000000 / 2 ^ 21), (.winPages, 0, 25, 32767)] State.reset
    let s := inMem 0x3FC0100008 (toBytes 8 0x0840000003) (inMem 0x3FC0100800 (toBytes 8 0x3FC0102001) (inMem 0x3FC0102018 (toBytes 8 0x8010600001) s))
    s.xlate 3 0x40123456 true = some 0x0840123456 ∧ s.xlate 3 0x4000600000 true = some 0x8010600000 ∧ ctlOf 0x8010600000 = 16 := by
  decide +kernel

/-- Worked case 16-1, step 3: the floor of the first epoch is 999.9 W, in quarter mW. -/
theorem test_case_16_1 :
    let s := put [(.weirUpWMs, 0, 0, 100), (.weirDownWMs, 0, 0, 50), (.rsvPeakW, 0, 0, 1100), (.rsvSustainW, 0, 0, 850), (.rsvVddMv, 0, 0, 800)] State.reset
    let s := { s with capt := ([(Fld.weirUpWMs.key 0 0, 50), (Fld.weirDownWMs.key 0 0, 200), (Fld.rsvPeakW.key 0 0, 900)] : List (Nat × Nat)).foldl (fun (t : List (Nat × Nat)) (x : Nat × Nat) => tabSet 0 x.1 x.2 t) [] }
    let s := { s with pow := { s.pow with p4 := 4000000, statMw := 180000 } }
    s.closeWindow.pow.floor4 = 3999600 := by
  decide +kernel

/-- Worked case 14-1: the checks of edges 0 → 1 and 0 → 2. -/
theorem test_case_14_1 :
    let w (n : Nat) : Bytes := toBytes 4 n
    let node (x v : Nat) : Bytes := w x ++ w v ++ List.replicate 24 0
    let edge (t cost param : Nat) : Bytes := w t ++ w 0 ++ w cost ++ w param
    let i (op rd ra rb im : Nat) : Nat := op * 2 ^ 26 + rd * 2 ^ 22 + ra * 2 ^ 18 + rb * 2 ^ 14 + im
    let prog := [i 2 0 0 0 1, i 1 1 0 0 1, i 0xB 2 0 0 0, i 0xB 3 1 0 0, i 9 2 2 3 0, i 0xC 2 2 0 0, i 4 4 0 0 1, i 5 5 0 0 0, i 0xA 4 4 5 0, i 8 4 4 4 0, i 0x14 0 2 4 0,
      i 5 6 0 0 1, i 0x14 0 0 6 0, i 3 7 0 0 0, i 2 8 0 0 0, i 9 7 7 8 0, i 0xC 7 7 0 0, i 5 9 0 0 2, i 0xA 7 7 9 0, i 0x18 0 7 0 0, i 0x19 0 0 0 0]
    let s := host0 []
    let s := inMem 0x11000 (edge 1 0x20000 0x20000 ++ edge 2 0x20000 0x20000) s
    let s := inMem 0x12000 (node 0 0 ++ node 0x20000 0x20000 ++ node 0x20000 0x38000 ++ node 0x50000 0x30000 ++ node 0x80000 0) s
    let s := inMem 0x15000 (w 0 ++ w 0x20000 ++ w 0x30000 ++ w 0x5555) s
    let s := prog.zipIdx.foldl (fun s x => s.setTowWord 3 x.2 x.1) s
    let d := putSlice (jobDesc 0 4 1000 0 0x14000) 20 [5]
    let c (e : Nat) : Option ChkEnd := (checkEdge 3 0 d ⟨s, 0, []⟩ 0 e).2.2
    c 0 = some (.accept 0x20000 0x1FFFE) ∧ c 1 = some .reject := by
  decide +kernel

end Sys2Proof.Tests
end

section
/-! SUPPORT. The ALU instructions (R357, Table 08-1): each operation of the model on numbers is the table's operation on 64-bit words, and an
instruction that only writes a scalar register completes as `WritesRd` says. -/

namespace Sys2Proof.Proofs

open Sys2Proof.Machine Sys2Proof.Claims

/-! ### The operations on numbers are the table's operations on words -/

/-- The operation `f` on numbers gives, in its low 64 bits, what `res` gives on 64-bit words. -/
def Computes (f : Nat → Nat → Nat) (res : BitVec 64 → BitVec 64 → BitVec 64) : Prop :=
  ∀ a b : BitVec 64, f a.toNat b.toNat % 2 ^ 64 = (res a b).toNat

/-- The same of numbers below 2^64, taken as words. -/
theorem Computes.ofNat {f : Nat → Nat → Nat} {res : BitVec 64 → BitVec 64 → BitVec 64} (h : Computes f res) {a b : Nat}
    (ha : a < 2 ^ 64) (hb : b < 2 ^ 64) : f a b % 2 ^ 64 = (res (BitVec.ofNat 64 a) (BitVec.ofNat 64 b)).toNat := by
  rw [← h, BitVec.toNat_ofNat, BitVec.toNat_ofNat, Nat.mod_eq_of_lt ha, Nat.mod_eq_of_lt hb]

/-- A word read as signed by the model is the word's signed value. -/
theorem sgn_toNat (a : BitVec 64) : sgn a.toNat = a.toInt := by
  have ha := a.isLt
  rw [BitVec.toInt_eq_toNat_cond, sgn, sext]
  split <;> split <;> omega

theorem sgn_le_iff (a b : BitVec 64) : sgn a.toNat ≤ sgn b.toNat ↔ a.sle b = true := by
  rw [sgn_toNat, sgn_toNat, BitVec.sle_iff_toInt_le]

theorem sgn_lt_iff (a b : BitVec 64) : sgn a.toNat < sgn b.toNat ↔ a.slt b = true := by
  rw [sgn_toNat, sgn_toNat, BitVec.slt_iff_toInt_lt]

/-- A choice between two words, made on their numbers. -/
theorem ite_toNat_mod {p q : Prop} [Decidable p] [Decidable q] (h : p ↔ q) (a b : BitVec 64) :
    (if p then a.toNat else b.toNat) % 2 ^ 64 = (if q then a else b).toNat := by
  simp only [h]
  split
  · exact Nat.mod_eq_of_lt a.isLt
  · exact Nat.mod_eq_of_lt b.isLt

theorem computes_aluAdd : Computes aluAdd fun a b => a + b := fun a b => by
  rw [aluAdd, Nat.mod_mod, BitVec.toNat_add]

theorem computes_aluSub : Computes aluSub fun a b => a - b := fun a b => by
  have hb := b.isLt
  rw [aluSub, Nat.mod_mod, BitVec.toNat_sub, Nat.mod_eq_of_lt hb]
  congr 1; omega

theorem computes_aluAnd : Computes aluAnd fun a b => a &&& b := fun a b => by
  rw [aluAnd, ← BitVec.toNat_and, Nat.mod_eq_of_lt (BitVec.isLt _)]

theorem computes_aluOr : Computes aluOr fun a b => a ||| b := fun a b => by
  rw [aluOr, ← BitVec.toNat_or, Nat.mod_eq_of_lt (BitVec.isLt _)]

theorem computes_aluXor : Computes aluXor fun a b => a ^^^ b := fun a b => by
  rw [aluXor, ← BitVec.toNat_xor, Nat.mod_eq_of_lt (BitVec.isLt _)]

theorem computes_aluSll : Computes aluSll fun a b => a <<< (b.toNat % 64) := fun a b => by
  rw [aluSll, Nat.mod_mod, BitVec.toNat_shiftLeft, Nat.shiftLeft_eq]

theorem computes_aluSrl : Computes aluSrl fun a b => a >>> (b.toNat % 64) := fun a b => by
  rw [aluSrl, ← Nat.shiftRight_eq_div_pow, ← BitVec.toNat_ushiftRight, Nat.mod_eq_of_lt (BitVec.isLt _)]

theorem computes_aluSra : Computes aluSra fun a b => a.sshiftRight (b.toNat % 64) := fun a b => by
  have h : aluSra a.toNat b.toNat = (a.sshiftRight (b.toNat % 64)).toNat := by
    rw [aluSra, sgn_toNat, wrapN, BitVec.sshiftRight, BitVec.toNat_ofInt, Int.shiftRight_eq_div_pow]
    norm_cast
  rw [h, Nat.mod_eq_of_lt (BitVec.isLt _)]

theorem computes_aluMul : Computes aluMul fun a b => a * b := fun a b => by
  rw [aluMul, Nat.mod_mod, BitVec.toNat_mul]

theorem computes_aluMin : Computes aluMin fun a b => if a.sle b then a else b := fun a b =>
  ite_toNat_mod (sgn_le_iff a b) a b

theorem computes_aluMax : Computes aluMax fun a b => if a.sle b then b else a := fun a b =>
  ite_toNat_mod (sgn_le_iff a b) b a

theorem computes_aluMinu : Computes aluMinu fun a b => if a ≤ b then a else b := fun a b => by
  rw [aluMinu, Nat.min_def]
  exact ite_toNat_mod BitVec.le_def.symm a b

theorem computes_aluMaxu : Computes aluMaxu fun a b => if a ≤ b then b else a := fun a b => by
  rw [aluMaxu, Nat.max_def]
  exact ite_toNat_mod BitVec.le_def.symm b a

theorem computes_aluSlt : Computes aluSlt fun a b => if a.slt b then 1 else 0 := fun a b =>
  ite_toNat_mod (sgn_lt_iff a b) 1 0

theorem computes_aluSltu : Computes aluSltu fun a b => if a < b then 1 else 0 := fun _ _ =>
  ite_toNat_mod BitVec.lt_def.symm 1 0

/-- Each row of Table 08-1 executes one operation of the model, in both forms, and that operation computes the row's result. -/
theorem aluTable_exec : ∀ r ∈ aluTable, ∃ f, Computes f r.res
    ∧ (∀ u dt s, exec (r.reg u dt) s = s.aluReg u dt r.opc f)
    ∧ ∀ u dt s, exec (r.imm u dt) s = s.aluImm u dt (r.opc + 0x10) f := by
  simp only [aluTable, List.forall_mem_cons]
  refine ⟨⟨_, computes_aluAdd, ?_⟩, ⟨_, computes_aluSub, ?_⟩, ⟨_, computes_aluAnd, ?_⟩, ⟨_, computes_aluOr, ?_⟩, ⟨_, computes_aluXor, ?_⟩,
    ⟨_, computes_aluSll, ?_⟩, ⟨_, computes_aluSrl, ?_⟩, ⟨_, computes_aluSra, ?_⟩, ⟨_, computes_aluMul, ?_⟩, ⟨_, computes_aluMin, ?_⟩,
    ⟨_, computes_aluMax, ?_⟩, ⟨_, computes_aluMinu, ?_⟩, ⟨_, computes_aluMaxu, ?_⟩, ⟨_, computes_aluSlt, ?_⟩, ⟨_, computes_aluSltu, ?_⟩,
    List.forall_mem_nil _⟩
  all_goals exact ⟨fun _ _ _ => rfl, fun _ _ _ => rfl⟩

/-! ### Completion of an instruction that only writes a scalar register -/

theorem fRd_lt (w : Nat) : fRd w < 32 := Nat.mod_lt _ (by decide)

theorem fImm_lt (w : Nat) : fImm w < 2 ^ 64 := Nat.mod_lt _ (by decide)

/-- A scalar register holds 64 bits (R355). -/
theorem sreg_lt (s : State) (u n : Nat) : s.sreg u n < 2 ^ 64 := by
  unfold State.sreg
  split
  · decide
  · exact s.reg_lt .coreSreg u n

theorem intsOnly_settle {s r : State} (h : r.out = s.out) : IntsOnly s r.settle := by
  obtain ⟨l, hl⟩ := State.settle_out r
  exact ⟨l.map (r.reg .kprIntVec 0), by rw [hl, h, List.map_map]; rfl⟩

/-- A sequencer that goes on, in the two equations the laws of `State.next` give (R231). -/
theorem advanced_of_pc {s t : State} {u : Nat} (hpc : t.pc u = if s.pc u = 4095 then 4095 else (s.pc u + 1) % 4096)
    (hover : (t.core u).pcOver = if s.pc u = 4095 then true else (s.core u).pcOver) : Advanced s t u := by
  unfold Advanced
  split
  · next h => exact ⟨by rw [hpc, if_pos h], by rw [hover, if_pos h]⟩
  · next h => exact ⟨by rw [hpc, if_neg h], by rw [hover, if_neg h]⟩

/-- An instruction whose meaning is `scalarDone` completes with the value's low 64 bits in RD and changes nothing else. -/
theorem writesRd_of_scalarDone {c : Instr} {s : State} {u dt v : Nat} {x : BitVec 64} (hu : u < 256)
    (hc : exec c s = fin (s.scalarDone u dt (fRd (s.iw u)) v)) (hv : v % 2 ^ 64 = x.toNat) : WritesRd c s u dt x := by
  obtain ⟨⟨hstate, hcores, hregs⟩, hcore, hsreg, hpc⟩ := scalarDone_spec s hu dt v (fRd_lt (s.iw u))
  have hout : (s.scalarDone u dt (fRd (s.iw u)) v).out = s.out := by rw [hstate]
  refine ⟨_, hc, hv ▸ hsreg, ?_, ⟨settle_of_regsCores hstate, intsOnly_settle hout⟩, hcores, ?_, ?_⟩
  · exact advanced_of_pc hpc (congrArg Core.pcOver hcore)
  · intro f i j hi hj hp
    exact hregs f i j hi hj (by tauto)
  · rw [State.core_settle, hcore]

/-- The register form of an operation writes its result on s[RA] and s[RB] (R357). -/
theorem writesRd_of_aluReg {c : Instr} {s : State} {u dt op : Nat} {f : Nat → Nat → Nat} {res : BitVec 64 → BitVec 64 → BitVec 64}
    (hu : u < 256) (hf : Computes f res) (hc : exec c s = s.aluReg u dt op f) (hi : s.canIssue u op = true) :
    WritesRd c s u dt (res (BitVec.ofNat 64 (s.sreg u (fRa (s.iw u)))) (BitVec.ofNat 64 (s.sreg u (fRb (s.iw u))))) :=
  writesRd_of_scalarDone hu (hc.trans (if_pos hi)) (hf.ofNat (sreg_lt ..) (sreg_lt ..))

/-- The immediate form of an operation writes its result on s[RA] and IMM (R357). -/
theorem writesRd_of_aluImm {c : Instr} {s : State} {u dt op : Nat} {f : Nat → Nat → Nat} {res : BitVec 64 → BitVec 64 → BitVec 64}
    (hu : u < 256) (hf : Computes f res) (hc : exec c s = s.aluImm u dt op f) (hi : s.canIssue u op = true) :
    WritesRd c s u dt (res (BitVec.ofNat 64 (s.sreg u (fRa (s.iw u)))) (BitVec.ofNat 64 (fImm (s.iw u)))) :=
  writesRd_of_scalarDone hu (hc.trans (if_pos hi)) (hf.ofNat (sreg_lt ..) (fImm_lt _))

/-- Settles O1: every row of the table executes an operation that computes the row's result, and that operation's meaning only writes RD. -/
theorem aluCompletes : Obligations.AluCompletes := by
  intro u dt s r hr
  obtain ⟨f, hf, hreg, himm⟩ := aluTable_exec r hr
  have hu : u.val < 256 := by omega
  exact ⟨writesRd_of_aluReg hu hf (hreg u dt s), writesRd_of_aluImm hu hf (himm u dt s)⟩

end Sys2Proof.Proofs
end

section
/-! SUPPORT. Ledger cells (R508 to R510, R513): what a cell holds after any list of terms, in closed form: a sum modulo 2^342, three flags that are
ORs, and a count. The form does not see the order of the terms, nor how requests split them. -/

namespace Sys2Proof.Proofs

open Sys2Proof.Machine Sys2Proof.Claims

/-! ### A cell and its number -/

/-- The numbers of a cell fit in their fields (Table 10-6). -/
structure CellFits (c : Cell) : Prop where
  value : c.value < 2 ^ 342
  adds  : c.adds < 2 ^ 64

theorem unpackCell_fits (n : Nat) : CellFits (unpackCell n) :=
  ⟨Nat.mod_lt _ (by positivity), Nat.mod_lt _ (by positivity)⟩

theorem b2n_lt (b : Bool) : b2n b < 2 := by cases b <;> decide

theorem decide_b2n (b : Bool) : decide (b2n b = 1) = b := by cases b <;> rfl

/-- The fields of a cell do not overlap: each is read back from the packed number. -/
theorem unpackCell_packCell {c : Cell} (h : CellFits c) : unpackCell (packCell c) = c := by
  obtain ⟨value, nan, pinf, ninf, adds⟩ := c
  obtain ⟨hv, ha⟩ : value < 2 ^ 342 ∧ adds < 2 ^ 64 := ⟨h.value, h.adds⟩
  have hn := b2n_lt nan
  have hp := b2n_lt pinf
  have hm := b2n_lt ninf
  simp only [unpackCell, packCell, bits, Nat.testBit_eq_decide_div_mod_eq, Nat.shiftRight_eq_div_pow, Cell.mk.injEq]
  refine ⟨by omega, .trans ?_ (decide_b2n nan), .trans ?_ (decide_b2n pinf), .trans ?_ (decide_b2n ninf), by omega⟩
  all_goals congr 2; omega

/-! ### Wrapped sums -/

theorem wrapN_cast (w : Nat) (i : Int) : (wrapN w i : Int) = i % 2 ^ w :=
  Int.toNat_of_nonneg (Int.emod_nonneg i (by positivity))

theorem wrapN_lt (w : Nat) (i : Int) : wrapN w i < 2 ^ w := by
  have h : (wrapN w i : Int) < 2 ^ w := wrapN_cast w i ▸ Int.emod_lt_of_pos i (by positivity)
  exact_mod_cast h

theorem wrapN_of_lt {w n : Nat} (h : n < 2 ^ w) : wrapN w n = n := by
  have hc : (wrapN w n : Int) = n := by rw [wrapN_cast, Int.emod_eq_of_lt (by positivity) (by exact_mod_cast h)]
  exact_mod_cast hc

/-- Wrapping a partial sum changes nothing modulo 2^w. -/
theorem wrapN_wrapN_add (w : Nat) (i j : Int) : wrapN w (wrapN w i + j) = wrapN w (i + j) := by
  rw [wrapN_cast, wrapN, wrapN, Int.emod_add_emod]

/-! ### What a cell holds after its terms -/

/-- A term as the value that its cell adds: an FP32 number, subnormals flushed (R113, R508). -/
def termVal (x : Nat) : Val := (readVal 0 x).1

/-- A term in units of VALUE's last bit; 0 for a NaN or an infinity. -/
def termUnits (x : Nat) : Int := unitsOf (-149) (termVal x)

/-- What cell `c` holds after the terms `l`: VALUE their sum modulo 2^342, each flag an OR, ADDS their number modulo 2^64 (R508). -/
def cellAfter (c : Cell) (l : List Nat) : Cell where
  value := wrapN 342 (c.value + (l.map termUnits).sum)
  nan   := c.nan || l.any (fun x => termVal x = .nan)
  pinf  := c.pinf || l.any (fun x => termVal x = .inf false)
  ninf  := c.ninf || l.any (fun x => termVal x = .inf true)
  adds  := (c.adds + l.length) % 2 ^ 64

theorem cellAfter_fits (c : Cell) (l : List Nat) : CellFits (cellAfter c l) :=
  ⟨wrapN_lt .., Nat.mod_lt _ (by positivity)⟩

theorem cellAfter_nil {c : Cell} (h : CellFits c) : cellAfter c [] = c := by
  simp [-Nat.reducePow, cellAfter, wrapN_of_lt h.value, Nat.mod_eq_of_lt h.adds]

theorem cellAfter_append (c : Cell) (l m : List Nat) : cellAfter (cellAfter c l) m = cellAfter c (l ++ m) := by
  simp [cellAfter, wrapN_wrapN_add, add_assoc, Bool.or_assoc]

/-- The terms' order leaves no trace: sums, ORs and lengths agree on permuted lists. -/
theorem cellAfter_perm (c : Cell) {l m : List Nat} (h : l.Perm m) : cellAfter c l = cellAfter c m := by
  simp only [cellAfter, (h.map termUnits).sum_eq, h.any_eq, h.length_eq]

/-- LEDGER_ADD of one term, over the three kinds of value that R508 tells apart. -/
theorem cellAdd_eq_cellAfter {c : Cell} (h : CellFits c) (x : Nat) : c.add x = cellAfter c [x] := by
  have hv := wrapN_of_lt h.value
  rcases hx : (readVal 0 x).1 with ⟨n, m, e⟩ | n | -
  case num => simp [Cell.add, cellAfter, termUnits, termVal, hx]
  case inf => cases n <;> simp [Cell.add, cellAfter, termUnits, termVal, hx, unitsOf, hv]
  case nan => simp [Cell.add, cellAfter, termUnits, termVal, hx, unitsOf, hv]

/-! ### Requests of one term or of a pair -/

/-- LEDGER_ADD of an element, its type and its term, on a cell as a number. -/
def addElement (n : Nat) (x : Nat × Nat) : Nat := ledgerAddCell n x.1 x.2

/-- The terms of a ledger element: the term itself, or of a pair the sum term and the error term (R509). -/
def ledgerTerms (x : Nat × Nat) : List Nat := if x.1 = 4 then [bits x.2 0 32, bits x.2 32 32] else [bits x.2 0 32]

/-- An element adds its terms to the cell it finds, and writes the reserved bits as 0 (R509, R510). -/
theorem addElement_eq (n : Nat) (x : Nat × Nat) :
    addElement n x = packCell (cellAfter (unpackCell n) (ledgerTerms x)) := by
  simp only [addElement, ledgerAddCell, ledgerTerms, cellAdd_eq_cellAfter (unpackCell_fits n)]
  split
  · rw [cellAdd_eq_cellAfter (cellAfter_fits ..), cellAfter_append, List.cons_append, List.nil_append]
  · rfl

/-- A run of elements on a packed cell adds all their terms: their split into elements leaves no trace. -/
theorem foldl_addElement_packCell {c : Cell} (h : CellFits c) (l : List (Nat × Nat)) :
    l.foldl addElement (packCell c) = packCell (cellAfter c (l.flatMap ledgerTerms)) := by
  induction l generalizing c with
  | nil => rw [List.foldl_nil, List.flatMap_nil, cellAfter_nil h]
  | cons x l ih =>
    rw [List.foldl_cons, addElement_eq, unpackCell_packCell h, ih (cellAfter_fits ..), cellAfter_append, List.flatMap_cons]

/-- The same from any number: with one element at least, the reserved bits end as 0. -/
theorem foldl_addElement {l : List (Nat × Nat)} (hl : l ≠ []) (n : Nat) :
    l.foldl addElement n = packCell (cellAfter (unpackCell n) (l.flatMap ledgerTerms)) := by
  obtain ⟨x, l, rfl⟩ := List.exists_cons_of_ne_nil hl
  rw [List.foldl_cons, addElement_eq, foldl_addElement_packCell (cellAfter_fits ..), cellAfter_append, List.flatMap_cons]

/-- Permuted elements leave the same cell. -/
theorem foldl_addElement_perm {l m : List (Nat × Nat)} (h : l.Perm m) (n : Nat) :
    l.foldl addElement n = m.foldl addElement n := by
  by_cases hl : l = []
  · subst hl; rw [h.nil_eq]
  · have hm : m ≠ [] := fun hm => hl (hm ▸ h).eq_nil
    rw [foldl_addElement hl, foldl_addElement hm, cellAfter_perm _ (h.flatMap_right ledgerTerms)]

/-- Settles O24: after its elements a cell is `cellAfter` of their terms, which permuting them does not change; LEDGER_SETTLE reads that cell only. -/
theorem ledgerOrderFree : Obligations.LedgerOrderFree := by
  intro cell l l' h
  have hcell := foldl_addElement_perm h cell
  exact ⟨hcell, fun sat => congrArg (fun n => (unpackCell n).settle sat) hcell⟩

end Sys2Proof.Proofs
end
